-- ==== Sys2Proof/Word.lean ====
section
/-! DEFINITION. The engine's data types: the byte, the 32-bit register, the four-byte word of the key schedule and the
4 x 4 State matrix (spec/00_scope.md R10, R12, R13). Types only; the operations on them stand under Machine/. -/

namespace Sys2Proof

/-- "an 8-bit unsigned value, the universal unit of state, key material, and table entries" (R10, R19). -/
abbrev Byte := BitVec 8

/-- The contents of one 32-bit register, or the data of one bus write (R11, R100). -/
abbrev Word := BitVec 32

/-- R13's "word": a sequence of four bytes `[w.0, w.1, w.2, w.3]`, not an integer. It is a key-schedule word, and also
one column of the State (`col(s, c)`). Called Quad here because Word is a register's contents. -/
structure Quad where
  b0 : Byte
  b1 : Byte
  b2 : Byte
  b3 : Byte
deriving DecidableEq, Repr

/-- The State of R113, "the 4×4 byte-matrix working representation of one block", held as its four columns:
`s[r][c]` is byte r of column c. -/
structure Matrix where
  c0 : Quad
  c1 : Quad
  c2 : Quad
  c3 : Quad
deriving DecidableEq, Repr

end Sys2Proof
end

