-- ==== Sys2Proof/Config.lean ====
section
/-! DEFINITION. What an implementation fixes (spec/00_scope.md R11, spec/93_implementation_defined.md I1, I2) and the two
closed sets of names it is indexed by: the operation and the key size. The open parameters are constants without a body,
so no proof can rest on a value of theirs. -/

namespace Sys2Proof

/-- The two operations of the engine (R305; "exactly two operations", R308). -/
inductive Operation where
  | cipher
  | decipher
deriving DecidableEq, Repr

/-- The three key sizes (R2, R500), named by their variant. Nk, Nr and the byte count are `KeySize.words`,
`KeySize.rounds` and `KeySize.bytes` of Machine/KeySchedule.lean. -/
inductive KeySize where
  | aes128
  | aes192
  | aes256
deriving DecidableEq, Repr

/-- The OPEN parameter LAT less one: how many clock cycles beyond the first a command takes (R706, R813, I1).
No body: nothing can evaluate it (log 4). -/
opaque Config.latBeyondOne : Operation → KeySize → Nat

/-- LAT(op, Nk), "a positive whole number of clock cycles" (R11, R706, R813). It is given the operation and the key size
only, so it "depends ... never on the key or block bytes" (R813). -/
def Config.lat (op : Operation) (nk : KeySize) : Nat := Config.latBeyondOne op nk + 1

/-- Rcon[0], "never used and ... not defined" (91_not_in_source.md N6; log 17). No body. -/
opaque Config.rconZero : Byte

/-- The OPEN placement of the window, counted in windows of 256 bytes (R200, I2). No body (log 19). -/
opaque Config.windowIndex : Nat

/-- BASE, "the platform address of the 256-byte register window; a multiple of 256" (R11, R200). -/
def Config.base : Nat := 256 * Config.windowIndex

end Sys2Proof
end

