-- ==== Sys2Proof/Syntax.lean ====
section
/-! DEFINITION. The instructions: one constructor per row of spec/opcode_table.json, in the table's order. The four
command-word rows come first (spec/30_encoding.md R303-R306), then the sixteen transaction-descriptor rows (R301, R302,
spec/45_bus_transactions.md). A constructor's operands are the bits its row leaves free, and a write's 32-bit data. -/

namespace Sys2Proof

/-- One decoded item of the opcode table. -/
inductive Instr where
  /-- NOP (R701), OP = 0; the operand is the ignored CW[31:4]. -/
  | nop (ignored : BitVec 28)
  /-- CIPHER (R707), OP = 1, with the declared KEYLEN (CW[13:8]) and BLKLEN (CW[20:16]), legal or not (R306). -/
  | cipher (keyLen : BitVec 6) (blkLen : BitVec 5)
  /-- DECIPHER (R708), OP = 2, operands as CIPHER. -/
  | decipher (keyLen : BitVec 6) (blkLen : BitVec 5)
  /-- ILLEGAL (R753): a command word no row above matches. -/
  | illegal (cw : Word)
  /-- RD.CTRL (R651). -/
  | rdCtrl
  /-- WR.CTRL (R652); the data is a command word. -/
  | wrCtrl (data : Word)
  /-- RD.STATUS (R653). -/
  | rdStatus
  /-- WR.STATUS (R654); the data is the write-one-to-clear mask. -/
  | wrStatus (data : Word)
  /-- RD.KEY, first row (R655): KEY0..KEY3, j = TD[3:2]. -/
  | rdKeyLow (j : Fin 4)
  /-- RD.KEY, second row (R655): KEY4..KEY7, register 4 + TD[3:2]. -/
  | rdKeyHigh (j : Fin 4)
  /-- WR.KEY, first row (R656): KEY0..KEY3. -/
  | wrKeyLow (j : Fin 4) (data : Word)
  /-- WR.KEY, second row (R656): KEY4..KEY7. -/
  | wrKeyHigh (j : Fin 4) (data : Word)
  /-- RD.DIN (R657). -/
  | rdDin (j : Fin 4)
  /-- WR.DIN (R658). -/
  | wrDin (j : Fin 4) (data : Word)
  /-- RD.DOUT (R659). -/
  | rdDout (j : Fin 4)
  /-- WR.DOUT (R660); the data is ignored. -/
  | wrDout (j : Fin 4) (data : Word)
  /-- RD.RSVD (R661); the operand is the word index OFF[7:2] of a reserved offset. -/
  | rdRsvd (index : BitVec 6)
  /-- WR.RSVD (R662); the data is ignored. -/
  | wrRsvd (index : BitVec 6) (data : Word)
  /-- BUSERR, first row (R663): a 32-bit access with OFF[1:0] != 0; a write carries its data, a read none. -/
  | busErrMisaligned (wdata : Option Word) (off : BitVec 8)
  /-- BUSERR, second row (R663): an 8-bit (half = false) or 16-bit (half = true) access at any offset. -/
  | busErrNarrow (wdata : Option Word) (half : Bool) (off : BitVec 8)
deriving DecidableEq, Repr

end Sys2Proof
end

