-- ==== Sys2Proof/WellFormed.lean ====
section
/-! DEFINITION. Which terms of Instr an encoding spells (spec/30_encoding.md R302, R306; the table's "first match").
Operand widths are in the types; four rows carry a condition beside. -/

namespace Sys2Proof

/-- A nonzero reserved field of a command word: CW[7:4], CW[15:14] or CW[31:21] (R101, R306). -/
def reservedCommandBits (cw : Word) : Bool :=
  cw.extractLsb' 4 4 != 0 || cw.extractLsb' 14 2 != 0 || cw.extractLsb' 21 11 != 0

/-- R306's illegal command words: OP in 0x3..0xF, or OP in {0x1, 0x2} with a nonzero reserved field. -/
def illegalCommand (cw : Word) : Bool :=
  let op := cw.extractLsb' 0 4
  if op = 0 then false else if op = 1 || op = 2 then reservedCommandBits cw else true

/-- The word indices OFF[7:2] of the reserved offsets 0x08, 0x0C and 0x50..0xFC (R201). -/
def reservedIndex (index : BitVec 6) : Bool :=
  index = 0x02#6 || index = 0x03#6 || decide (0x14#6 ≤ index)

/-- An offset that is not a multiple of 4 (R204). -/
def misalignedOffset (off : BitVec 8) : Bool := off.extractLsb' 0 2 != 0

/-- Whether some word of the spec's encodings spells this instruction. -/
def Instr.wellFormed : Instr → Bool
  | .nop _ => true
  | .cipher _ _ => true
  | .decipher _ _ => true
  | .illegal cw => illegalCommand cw
  | .rdCtrl => true
  | .wrCtrl _ => true
  | .rdStatus => true
  | .wrStatus _ => true
  | .rdKeyLow _ => true
  | .rdKeyHigh _ => true
  | .wrKeyLow _ _ => true
  | .wrKeyHigh _ _ => true
  | .rdDin _ => true
  | .wrDin _ _ => true
  | .rdDout _ => true
  | .wrDout _ _ => true
  | .rdRsvd index => reservedIndex index
  | .wrRsvd index _ => reservedIndex index
  | .busErrMisaligned _ off => misalignedOffset off
  | .busErrNarrow _ _ _ => true

end Sys2Proof
end

