-- ==== Sys2Proof/Decode.lean ====
section
/-! DEFINITION. The rows of spec/opcode_table.json, the decoder and the encoder (spec/30_encoding.md R300-R307, R311).
The engine decodes two objects (R300): a 16-bit transaction descriptor with 32 bits of data, and a 32-bit command word. -/

namespace Sys2Proof

/-- The pattern of one opcode-table row over n bits: a word w is the row's when `w AND mask = pattern`. -/
structure OpcodeRow (n : Nat) where
  mnemonic : String
  pattern : BitVec n
  mask : BitVec n
deriving DecidableEq, Repr

/-- The word lies in the row (R311: "matched ... by `match` and `mask`"). -/
def OpcodeRow.hits {n : Nat} (row : OpcodeRow n) (w : BitVec n) : Bool := w &&& row.mask == row.pattern

def rowNop : OpcodeRow 32 := ⟨"NOP", 0x00000000, 0x0000000F⟩
def rowCipher : OpcodeRow 32 := ⟨"CIPHER", 0x00000001, 0xFFE0C0FF⟩
def rowDecipher : OpcodeRow 32 := ⟨"DECIPHER", 0x00000002, 0xFFE0C0FF⟩
def rowIllegal : OpcodeRow 32 := ⟨"ILLEGAL", 0x00000000, 0x00000000⟩
def rowRdCtrl : OpcodeRow 16 := ⟨"RD.CTRL", 0x0200, 0xFFFF⟩
def rowWrCtrl : OpcodeRow 16 := ⟨"WR.CTRL", 0x8200, 0xFFFF⟩
def rowRdStatus : OpcodeRow 16 := ⟨"RD.STATUS", 0x0204, 0xFFFF⟩
def rowWrStatus : OpcodeRow 16 := ⟨"WR.STATUS", 0x8204, 0xFFFF⟩
def rowRdKeyLow : OpcodeRow 16 := ⟨"RD.KEY", 0x0210, 0xFFF3⟩
def rowRdKeyHigh : OpcodeRow 16 := ⟨"RD.KEY", 0x0220, 0xFFF3⟩
def rowWrKeyLow : OpcodeRow 16 := ⟨"WR.KEY", 0x8210, 0xFFF3⟩
def rowWrKeyHigh : OpcodeRow 16 := ⟨"WR.KEY", 0x8220, 0xFFF3⟩
def rowRdDin : OpcodeRow 16 := ⟨"RD.DIN", 0x0230, 0xFFF3⟩
def rowWrDin : OpcodeRow 16 := ⟨"WR.DIN", 0x8230, 0xFFF3⟩
def rowRdDout : OpcodeRow 16 := ⟨"RD.DOUT", 0x0240, 0xFFF3⟩
def rowWrDout : OpcodeRow 16 := ⟨"WR.DOUT", 0x8240, 0xFFF3⟩
def rowRdRsvd : OpcodeRow 16 := ⟨"RD.RSVD", 0x0200, 0xFF03⟩
def rowWrRsvd : OpcodeRow 16 := ⟨"WR.RSVD", 0x8200, 0xFF03⟩
def rowBusErrMisaligned : OpcodeRow 16 := ⟨"BUSERR", 0x0200, 0x7F00⟩
def rowBusErrNarrow : OpcodeRow 16 := ⟨"BUSERR", 0x0000, 0x7E00⟩

/-- The CW rows in table order; the last one matches what the others leave ("first match"). -/
def commandRows : List (OpcodeRow 32) := [rowNop, rowCipher, rowDecipher, rowIllegal]

/-- The TD rows in table order; the last four say "first match". -/
def transactionRows : List (OpcodeRow 16) :=
  [rowRdCtrl, rowWrCtrl, rowRdStatus, rowWrStatus, rowRdKeyLow, rowRdKeyHigh, rowWrKeyLow, rowWrKeyHigh] ++
  [rowRdDin, rowWrDin, rowRdDout, rowWrDout, rowRdRsvd, rowWrRsvd, rowBusErrMisaligned, rowBusErrNarrow]

/-- The table row a constructor stands for: a CW row or a TD row. -/
def rowOf : Instr → Option (OpcodeRow 32) × Option (OpcodeRow 16)
  | .nop _ => (rowNop, none)
  | .cipher _ _ => (rowCipher, none)
  | .decipher _ _ => (rowDecipher, none)
  | .illegal _ => (rowIllegal, none)
  | .rdCtrl => (none, rowRdCtrl)
  | .wrCtrl _ => (none, rowWrCtrl)
  | .rdStatus => (none, rowRdStatus)
  | .wrStatus _ => (none, rowWrStatus)
  | .rdKeyLow _ => (none, rowRdKeyLow)
  | .rdKeyHigh _ => (none, rowRdKeyHigh)
  | .wrKeyLow _ _ => (none, rowWrKeyLow)
  | .wrKeyHigh _ _ => (none, rowWrKeyHigh)
  | .rdDin _ => (none, rowRdDin)
  | .wrDin _ _ => (none, rowWrDin)
  | .rdDout _ => (none, rowRdDout)
  | .wrDout _ _ => (none, rowWrDout)
  | .rdRsvd _ => (none, rowRdRsvd)
  | .wrRsvd _ _ => (none, rowWrRsvd)
  | .busErrMisaligned _ _ => (none, rowBusErrMisaligned)
  | .busErrNarrow _ _ _ => (none, rowBusErrNarrow)

/-- Why the transcriber refuses a descriptor (R302): it "spells no transaction". -/
inductive DecodeError where
  /-- TD[14:10] != 0. -/
  | reservedBitsSet
  /-- SIZE = 3. -/
  | sizeNotATransaction
deriving DecidableEq, Repr

/-- The two objects the engine decodes (R300), as words: a command word, or a descriptor with the data that accompanies
it when W = 1 (the data of a read is no part of the transaction and is not looked at, log 14). -/
inductive CodeWord where
  | command (cw : Word)
  | transaction (td : BitVec 16) (data : Word)
deriving DecidableEq, Repr

/-- The first row in table order, of the object's format, that the object lies in (R311). -/
def firstRow : CodeWord → Option (OpcodeRow 32) × Option (OpcodeRow 16)
  | .command cw => (commandRows.find? (·.hits cw), none)
  | .transaction td _ => (none, transactionRows.find? (·.hits td))

/-- Decoding of a command word (R304-R306), by the first matching CW row (R311). Total: ILLEGAL takes what is left. -/
def decodeCommand (cw : Word) : Instr :=
  if rowNop.hits cw then .nop (cw.extractLsb' 4 28)
  else if rowCipher.hits cw then .cipher (cw.extractLsb' 8 6) (cw.extractLsb' 16 5)
  else if rowDecipher.hits cw then .decipher (cw.extractLsb' 8 6) (cw.extractLsb' 16 5)
  else .illegal cw

/-- The register index TD[3:2] of the KEY, DIN and DOUT rows. -/
def registerIndex (td : BitVec 16) : Fin 4 := (td.extractLsb' 2 2).toFin

/-- The data of a transaction: present exactly when W = TD[15] = 1 (R301). -/
def writeData (td : BitVec 16) (data : Word) : Option Word := if td.getLsbD 15 then some data else none

/-- A descriptor that names a transaction, by the first matching TD row (R311). What the first fifteen rows leave is a
narrow access, the last row. -/
def decodeRow (td : BitVec 16) (data : Word) : Instr :=
  if rowRdCtrl.hits td then .rdCtrl
  else if rowWrCtrl.hits td then .wrCtrl data
  else if rowRdStatus.hits td then .rdStatus
  else if rowWrStatus.hits td then .wrStatus data
  else if rowRdKeyLow.hits td then .rdKeyLow (registerIndex td)
  else if rowRdKeyHigh.hits td then .rdKeyHigh (registerIndex td)
  else if rowWrKeyLow.hits td then .wrKeyLow (registerIndex td) data
  else if rowWrKeyHigh.hits td then .wrKeyHigh (registerIndex td) data
  else if rowRdDin.hits td then .rdDin (registerIndex td)
  else if rowWrDin.hits td then .wrDin (registerIndex td) data
  else if rowRdDout.hits td then .rdDout (registerIndex td)
  else if rowWrDout.hits td then .wrDout (registerIndex td) data
  else if rowRdRsvd.hits td then .rdRsvd (td.extractLsb' 2 6)
  else if rowWrRsvd.hits td then .wrRsvd (td.extractLsb' 2 6) data
  else if rowBusErrMisaligned.hits td then .busErrMisaligned (writeData td data) (td.extractLsb' 0 8)
  else .busErrNarrow (writeData td data) (td.getLsbD 8) (td.extractLsb' 0 8)

/-- Decoding of a transaction (R302): the descriptors that spell no transaction are refused by name, every other one is
an instruction. -/
def decodeTransaction (td : BitVec 16) (data : Word) : Except DecodeError Instr :=
  if td.extractLsb' 10 5 ≠ 0 then .error .reservedBitsSet
  else if td.extractLsb' 8 2 = 3 then .error .sizeNotATransaction
  else .ok (decodeRow td data)

/-- The decoder, on either object. -/
def decode : CodeWord → Except DecodeError Instr
  | .command cw => .ok (decodeCommand cw)
  | .transaction td data => decodeTransaction td data

/-- R303: a command word from its fields, with zero in the reserved ones. -/
def commandWord (op : BitVec 4) (keyLen : BitVec 6) (blkLen : BitVec 5) : Word :=
  0#11 ++ blkLen ++ 0#2 ++ keyLen ++ 0#4 ++ op

/-- R301: a descriptor from its fields, with zero in the reserved one. -/
def descriptor (write : Bool) (size : BitVec 2) (off : BitVec 8) : BitVec 16 :=
  BitVec.ofBool write ++ 0#5 ++ size ++ off

/-- Offset of register j of an array of registers at the given first offset (R201). -/
def registerOffset (first : BitVec 8) (j : Fin 4) : BitVec 8 := first + 4 * BitVec.ofNat 8 j.val

/-- A 32-bit read, and a 32-bit write, at an offset. -/
def readWord (off : BitVec 8) : CodeWord := .transaction (descriptor false 2 off) 0
def writeWord (off : BitVec 8) (data : Word) : CodeWord := .transaction (descriptor true 2 off) data

/-- An access of any size, as the BUSERR rows hold it; a read's data word is zero. -/
def accessWord (wdata : Option Word) (size : BitVec 2) (off : BitVec 8) : CodeWord :=
  .transaction (descriptor wdata.isSome size off) (wdata.getD 0)

/-- The words of a well-formed instruction, from R301, R303 and the offsets of R201. -/
def encode : Instr → CodeWord
  | .nop ignored => .command (ignored ++ 0#4)
  | .cipher keyLen blkLen => .command (commandWord 0x1 keyLen blkLen)
  | .decipher keyLen blkLen => .command (commandWord 0x2 keyLen blkLen)
  | .illegal cw => .command cw
  | .rdCtrl => readWord 0x00
  | .wrCtrl data => writeWord 0x00 data
  | .rdStatus => readWord 0x04
  | .wrStatus data => writeWord 0x04 data
  | .rdKeyLow j => readWord (registerOffset 0x10 j)
  | .rdKeyHigh j => readWord (registerOffset 0x20 j)
  | .wrKeyLow j data => writeWord (registerOffset 0x10 j) data
  | .wrKeyHigh j data => writeWord (registerOffset 0x20 j) data
  | .rdDin j => readWord (registerOffset 0x30 j)
  | .wrDin j data => writeWord (registerOffset 0x30 j) data
  | .rdDout j => readWord (registerOffset 0x40 j)
  | .wrDout j data => writeWord (registerOffset 0x40 j) data
  | .rdRsvd index => readWord (index ++ 0#2)
  | .wrRsvd index data => writeWord (index ++ 0#2) data
  | .busErrMisaligned wdata off => accessWord wdata 2 off
  | .busErrNarrow wdata half off => accessWord wdata (if half then 1 else 0) off

/-- The words numbered as the opcode table numbers bits: a command word is 32 bits, a descriptor 16, and a descriptor
with its data 48, the data in bits 47:16. -/
def codeWordOfTable (nbits w : Nat) : Option CodeWord :=
  if nbits = 32 then some (.command (BitVec.ofNat 32 w))
  else if nbits = 16 then some (.transaction (BitVec.ofNat 16 w) 0)
  else if nbits = 48 then some (.transaction (BitVec.ofNat 16 w) (BitVec.ofNat 32 (w >>> 16)))
  else none

/-- The instruction the decoder reads from a table row's bits, or none where it refuses. -/
def decodeTableWord (nbits w : Nat) : Option Instr :=
  match codeWordOfTable nbits w with
  | none => none
  | some c =>
    match decode c with
    | .ok i => some i
    | .error _ => none

end Sys2Proof
end

