-- ==== Sys2Proof/Machine/State.lean ====
section
/-! DEFINITION. The machine's state as plain data (spec/10_state.md), the three ways a step ends, and the state after
reset (spec/10_state.md R125, spec/70_reset_and_hazards.md R800). -/

namespace Sys2Proof.Machine

/-- `eng.phase` (R110). STATUS.BUSY is the same fact: "BUSY equals 1 exactly when `eng.phase = BUSY`" (R102). -/
inductive Phase where
  | idle
  | busy
deriving DecidableEq, Repr

/-- The stored STATUS bits (R102): DONE, KEYERR, BLKERR, ILLEGAL, OVR. BUSY is `Engine.phase`; bits 31:6 are 0. -/
structure Status where
  done : Bool
  keyErr : Bool
  blkErr : Bool
  illegal : Bool
  ovr : Bool
deriving DecidableEq, Repr

/-- The state inside the engine (R110-R115), under the spec's `eng.` names. -/
structure Engine where
  phase : Phase
  /-- Operand snapshot (R111): the operation, the key size, 4*Nk key bytes, 16 block bytes. -/
  op : Operation
  nk : KeySize
  key : List Byte
  blk : List Byte
  /-- Clock cycles left before completion (R112). -/
  remaining : Nat
  /-- Working state of the pipeline in progress (R113, R114, R115; log 7). -/
  s : Matrix
  w : List Quad
  round : Nat
deriving DecidableEq, Repr

/-- What a host observes (R18): the value a bus read returns, or a bus error response. -/
inductive Observation where
  | value (v : Word)
  | busError
deriving DecidableEq, Repr

/-- One step of one agent (R17), waiting in the total order of R211 (log 1). -/
inductive Event where
  /-- host: one bus transaction, its descriptor and its data (R301). -/
  | access (td : BitVec 16) (data : Word)
  /-- engine: the completion step (R705), in the untimed model's sense (R706). -/
  | completion
  /-- engine: one round of the pipeline in progress, not observable (R115, R116; log 7). -/
  | round
  /-- One clock cycle passes (R706, cycle-timed; log 5). -/
  | clock
  /-- reset: the atomic reset step (R800, untimed). -/
  | reset
  /-- reset: the reset input becomes asserted or released (R800). -/
  | resetInput (asserted : Bool)
deriving DecidableEq, Repr

/-- The error conditions of R750. -/
inductive ErrorCondition where
  | keyLen
  | blkLen
  | illegal
  | overrun
  | bus
deriving DecidableEq, Repr

/-- No fault: no error of R750 stops the engine ("The engine has no trap", R758), and a bus error is a response to the
host after which the machine goes on (R755), so nothing raises one. -/
inductive Fault where
deriving DecidableEq, Repr

/-- Why a step has no next state. -/
inductive Refusal where
  /-- Raised by an arm of exec whose instruction has no meaning yet; none is left. Safe. -/
  | notModelled (mnemonic : String)
  /-- Raised by step when the next access is a descriptor that "spells no transaction" (R302): "The model's transcriber
  refuses it by name, because no bus produces it". Safe: no such access exists on the hardware. -/
  | notATransaction (reason : DecodeError)
deriving DecidableEq, Repr


/-- The whole machine. -/
structure State where
  /-- KEY[0..7] (R103). -/
  key : Vector Word 8
  /-- DIN[0..3] (R104). -/
  din : Vector Word 4
  /-- DOUT[0..3] (R105). -/
  dout : Vector Word 4
  /-- STATUS but for BUSY (R102). -/
  status : Status
  /-- Internal state (R110-R115). -/
  eng : Engine
  /-- The level of the reset input (R800). -/
  resetAsserted : Bool
  /-- The steps still to come, oldest first (R211; log 1). -/
  schedule : List Event
  /-- What the host has observed, newest first (R18; log 11). -/
  observed : List Observation
deriving DecidableEq, Repr

/-- STATUS = 0x00000000 but for BUSY (R125). -/
def Status.reset : Status := { done := false, keyErr := false, blkErr := false, illegal := false, ovr := false }

/-- The all-zero State matrix. -/
def zeroMatrix : Matrix := ⟨⟨0, 0, 0, 0⟩, ⟨0, 0, 0, 0⟩, ⟨0, 0, 0, 0⟩, ⟨0, 0, 0, 0⟩⟩

/-- Phase IDLE and remaining 0 are R125's. The snapshot and the working state are unspecified there; the values here are
DESIGN CHOICE (log 8, unsafe for a claim that reads them). -/
def Engine.reset : Engine :=
  { phase := .idle
    op := .cipher
    nk := .aes128
    key := List.replicate 16 0
    blk := List.replicate 16 0
    remaining := 0
    s := zeroMatrix
    w := []
    round := 0 }

/-- The machine right after reset (R125, R800): idle, every register 0, no step waiting (log 2), nothing observed yet. -/
def State.reset : State :=
  { key := Vector.replicate 8 0
    din := Vector.replicate 4 0
    dout := Vector.replicate 4 0
    status := Status.reset
    eng := Engine.reset
    resetAsserted := false
    schedule := []
    observed := [] }

end Sys2Proof.Machine
end

