-- ==== Sys2Proof/Machine/Flags.lean ====
section
/-! DEFINITION. STATUS: its value as a 32-bit register and every way its bits change (spec/10_state.md R102,
spec/45_bus_transactions.md R653, R654, spec/46_commands.md R700, spec/60_exceptions.md R750). -/

namespace Sys2Proof.Machine

/-- STATUS.BUSY, the view of the phase as a bit (R102, R110). -/
def Phase.busyBit : Phase → Bool
  | .idle => false
  | .busy => true

/-- `zext_32(OVR << 5 | ILLEGAL << 4 | BLKERR << 3 | KEYERR << 2 | DONE << 1 | BUSY)` (R653). -/
def statusWord (phase : Phase) (st : Status) : Word :=
  0#26 ++ BitVec.ofBool st.ovr ++ BitVec.ofBool st.illegal ++ BitVec.ofBool st.blkErr ++ BitVec.ofBool st.keyErr ++
    BitVec.ofBool st.done ++ BitVec.ofBool phase.busyBit

/-- A write of v to STATUS (R654): each of bits 1..5 written as 1 is cleared; v[0] and v[31:6] are ignored. -/
def Status.writeOneToClear (st : Status) (v : Word) : Status :=
  { done := st.done && !v.getLsbD 1
    keyErr := st.keyErr && !v.getLsbD 2
    blkErr := st.blkErr && !v.getLsbD 3
    illegal := st.illegal && !v.getLsbD 4
    ovr := st.ovr && !v.getLsbD 5 }

/-- R700 step 3: DONE, KEYERR, BLKERR and ILLEGAL are cleared, OVR is not. -/
def Status.clearOutcome (st : Status) : Status :=
  { st with done := false, keyErr := false, blkErr := false, illegal := false }

/-- The STATUS bit an error condition records (R750); E_BUS records nothing. -/
def Status.record (st : Status) (e : ErrorCondition) : Status :=
  match e with
  | .keyLen => { st with keyErr := true }
  | .blkLen => { st with blkErr := true }
  | .illegal => { st with illegal := true }
  | .overrun => { st with ovr := true }
  | .bus => st

end Sys2Proof.Machine
end

