-- ==== Sys2Proof/Machine/Bytes.lean ====
section
/-! DEFINITION. Byte lanes of a register (spec/20_memory.md R205), and indexed access to words and the State
(spec/00_scope.md R13). -/

namespace Sys2Proof

/-- Byte n of a register, bits [8n+7:8n] (R205). -/
def byteLane (v : Word) (n : Nat) : Byte := v.extractLsb' (8 * n) 8

/-- `word_le(a, b, c, d) = a | b << 8 | c << 16 | d << 24` (R310): the register that holds four bytes in order (R205). -/
def wordLe (a b c d : Byte) : Word := d ++ c ++ b ++ a

/-- Byte n of a word, `w.n` (R13). -/
def Quad.get (q : Quad) (n : Fin 4) : Byte :=
  match n with
  | 0 => q.b0
  | 1 => q.b1
  | 2 => q.b2
  | 3 => q.b3

/-- The word with byte n given by f. -/
def Quad.ofFn (f : Fin 4 → Byte) : Quad := ⟨f 0, f 1, f 2, f 3⟩

/-- Exclusive-or of words, byte by byte (R13, R403). -/
def Quad.xor (u v : Quad) : Quad := ⟨u.b0 ^^^ v.b0, u.b1 ^^^ v.b1, u.b2 ^^^ v.b2, u.b3 ^^^ v.b3⟩

/-- `col(s, c)` (R13). -/
def Matrix.col (s : Matrix) (c : Fin 4) : Quad :=
  match c with
  | 0 => s.c0
  | 1 => s.c1
  | 2 => s.c2
  | 3 => s.c3

/-- `s[r][c]`, the byte at row r and column c (R13). -/
def Matrix.get (s : Matrix) (r c : Fin 4) : Byte := (s.col c).get r

/-- The State with `t[r][c]` given by f. -/
def Matrix.ofFn (f : Fin 4 → Fin 4 → Byte) : Matrix :=
  ⟨Quad.ofFn (f · 0), Quad.ofFn (f · 1), Quad.ofFn (f · 2), Quad.ofFn (f · 3)⟩

end Sys2Proof
end

