-- ==== Sys2Proof/Machine/Field.lean ====
section
/-! DEFINITION. Finite-field arithmetic GF(2^8) (spec/40_field_arithmetic.md). Total functions on bytes that raise
nothing and write no flag (R406). -/

namespace Sys2Proof

/-- Field addition (R409). -/
def gadd (a b : Byte) : Byte := a ^^^ b

/-- Multiplication by x (R400): shift left one bit, and reduce by 0x1B when bit 7 was set. -/
def xtime (a : Byte) : Byte := if a.getLsbD 7 then (a <<< 1) ^^^ 0x1B#8 else a <<< 1

/-- One turn of R401's loop, on (r, p). -/
def gmulStep (b : Byte) (rp : Byte × Byte) (i : Nat) : Byte × Byte :=
  (if b.getLsbD i then rp.1 ^^^ rp.2 else rp.1, xtime rp.2)

/-- The product in GF(2^8) (R401): repeated doubling of a, summed over the set bits of b. -/
def gmul (a b : Byte) : Byte := ([0, 1, 2, 3, 4, 5, 6, 7].foldl (gmulStep b) (0#8, a)).1

end Sys2Proof
end

