-- ==== Sys2Proof/Machine/KeySchedule.lean ====
section
/-! DEFINITION. The key schedule (spec/42_key_schedule.md). -/

namespace Sys2Proof

/-- Nk, the key length in words (R500). -/
def KeySize.words : KeySize → Nat
  | .aes128 => 4
  | .aes192 => 6
  | .aes256 => 8

/-- Nr, the number of rounds (R500). -/
def KeySize.rounds : KeySize → Nat
  | .aes128 => 10
  | .aes192 => 12
  | .aes256 => 14

/-- The key length L = 4 * Nk in bytes (R500). -/
def KeySize.bytes (nk : KeySize) : Nat := 4 * nk.words

/-- `Rcon[j]` for j >= 1 (R502): `Rcon[1] = 0x01`, `Rcon[j+1] = xtime(Rcon[j])`. R502 defines no Rcon[0], which
is used nowhere: the argument 0 has the value of a constant without a body (log 17). -/
def rcon : Nat → Byte
  | 0 => Config.rconZero
  | 1 => 0x01#8
  | j + 2 => xtime (rcon (j + 1))

/-- RotWord (R503), the one-byte left rotation. -/
def rotWord (t : Quad) : Quad := ⟨t.b1, t.b2, t.b3, t.b0⟩

/-- SubWord (R504). -/
def subWord (t : Quad) : Quad := ⟨sub t.b0, sub t.b1, sub t.b2, sub t.b3⟩

/-- The initial word `[key[4i], key[4i+1], key[4i+2], key[4i+3]]` (R504). -/
def keyWord (key : List Byte) (i : Nat) : Quad :=
  ⟨key.getD (4 * i) 0, key.getD (4 * i + 1) 0, key.getD (4 * i + 2) 0, key.getD (4 * i + 3) 0⟩

/-- What R505 XORs into w[i-Nk], from temp = w[i-1]. -/
def expandTemp (nk : KeySize) (i : Nat) (temp : Quad) : Quad :=
  if i % nk.words = 0 then
    let t := subWord (rotWord temp)
    { t with b0 := t.b0 ^^^ rcon (i / nk.words) }
  else if nk.words = 8 ∧ i % nk.words = 4 then subWord temp
  else temp

/-- R505's second loop: n more words, the next one being w[i] for i the number of words so far. -/
def expandLoop (nk : KeySize) : Nat → List Quad → List Quad
  | 0, w => w
  | n + 1, w =>
    let i := w.length
    expandLoop nk n (w ++ [(w.getD (i - nk.words) ⟨0, 0, 0, 0⟩).xor (expandTemp nk i (w.getD (i - 1) ⟨0, 0, 0, 0⟩))])

/-- `expand(key)` (R505), the 4*(Nr+1) words of the expanded key (R501). -/
def expand (nk : KeySize) (key : List Byte) : List Quad :=
  expandLoop nk (4 * (nk.rounds + 1) - nk.words) ((List.range nk.words).map (keyWord key))

/-- Word w[i] of an expanded key. -/
def roundKeyWord (w : List Quad) (i : Nat) : Quad := w.getD i ⟨0, 0, 0, 0⟩

end Sys2Proof
end

