-- ==== Sys2Proof/Machine/RoundTransforms.lean ====
section
/-! DEFINITION. The round transform primitives (spec/43_round_transforms.md), each a pure function on the State. Row and
column arithmetic is on Fin 4, which is arithmetic mod 4. -/

namespace Sys2Proof

/-- SubBytes (R550). -/
def subBytes (s : Matrix) : Matrix := Matrix.ofFn fun r c => sub (s.get r c)

/-- InvSubBytes (R551). -/
def invSubBytes (s : Matrix) : Matrix := Matrix.ofFn fun r c => invSub (s.get r c)

/-- ShiftRows (R552): `t[r][c] = s[r][(c + r) mod 4]`. -/
def shiftRows (s : Matrix) : Matrix := Matrix.ofFn fun r c => s.get r (c + r)

/-- InvShiftRows (R553): `t[r][c] = s[r][(c - r) mod 4]`. -/
def invShiftRows (s : Matrix) : Matrix := Matrix.ofFn fun r c => s.get r (c - r)

/-- Row r of the matrix MIX (R554). -/
def mix (r : Fin 4) : Quad :=
  match r with
  | 0 => ⟨0x02, 0x03, 0x01, 0x01⟩
  | 1 => ⟨0x01, 0x02, 0x03, 0x01⟩
  | 2 => ⟨0x01, 0x01, 0x02, 0x03⟩
  | 3 => ⟨0x03, 0x01, 0x01, 0x02⟩

/-- Row r of the matrix INV_MIX (R555). -/
def invMix (r : Fin 4) : Quad :=
  match r with
  | 0 => ⟨0x0e, 0x0b, 0x0d, 0x09⟩
  | 1 => ⟨0x09, 0x0e, 0x0b, 0x0d⟩
  | 2 => ⟨0x0d, 0x09, 0x0e, 0x0b⟩
  | 3 => ⟨0x0b, 0x0d, 0x09, 0x0e⟩

/-- A matrix row times a State column, in GF(2^8) (R554). -/
def rowTimesColumn (m col : Quad) : Byte :=
  gmul m.b0 col.b0 ^^^ gmul m.b1 col.b1 ^^^ gmul m.b2 col.b2 ^^^ gmul m.b3 col.b3

/-- MixColumns (R554). -/
def mixColumns (s : Matrix) : Matrix := Matrix.ofFn fun r c => rowTimesColumn (mix r) (s.col c)

/-- InvMixColumns (R555). -/
def invMixColumns (s : Matrix) : Matrix := Matrix.ofFn fun r c => rowTimesColumn (invMix r) (s.col c)

/-- AddRoundKey with round-key group r (R506, R556): `t[n][c] = s[n][c] xor w[4r + c].n`. -/
def addRoundKey (s : Matrix) (w : List Quad) (r : Nat) : Matrix :=
  Matrix.ofFn fun n c => s.get n c ^^^ (roundKeyWord w (4 * r + c.val)).get n

end Sys2Proof
end

