-- ==== Sys2Proof/Machine/Pipeline.lean ====
section
/-! DEFINITION. The block cipher pipelines (spec/44_pipelines.md), and the same pipelines one round at a time, which is
what eng.s, eng.w and eng.round hold while one is in progress (spec/10_state.md R113-R115). -/

namespace Sys2Proof

/-- LoadState (R600): `s[r][c] <- b[r + 4c]`. -/
def loadState (b : List Byte) : Matrix := Matrix.ofFn fun r c => b.getD (r.val + 4 * c.val) 0

/-- The four bytes of a word, in order. -/
def Quad.bytes (q : Quad) : List Byte := [q.b0, q.b1, q.b2, q.b3]

/-- StoreState (R601): `b[r + 4c] <- s[r][c]`, so the columns in order. -/
def storeState (s : Matrix) : List Byte := s.c0.bytes ++ s.c1.bytes ++ s.c2.bytes ++ s.c3.bytes

/-- A middle round of Cipher, rd in 1..Nr-1 (R602). -/
def cipherMiddleRound (w : List Quad) (s : Matrix) (rd : Nat) : Matrix :=
  addRoundKey (mixColumns (shiftRows (subBytes s))) w rd

/-- Round Nr of Cipher, without MixColumns (R602, R606). -/
def cipherFinalRound (w : List Quad) (s : Matrix) (nr : Nat) : Matrix :=
  addRoundKey (shiftRows (subBytes s)) w nr

/-- A middle round of InvCipher, rd in Nr-1..1: InvMixColumns comes after AddRoundKey (R603). -/
def decipherMiddleRound (w : List Quad) (s : Matrix) (rd : Nat) : Matrix :=
  invMixColumns (addRoundKey (invSubBytes (invShiftRows s)) w rd)

/-- The last step of InvCipher, round 0, without InvMixColumns (R603, R606). -/
def decipherFinalRound (w : List Quad) (s : Matrix) : Matrix :=
  addRoundKey (invSubBytes (invShiftRows s)) w 0

/-- The round indices 1..Nr-1, upward. -/
def middleRounds (nr : Nat) : List Nat := (List.range (nr - 1)).map (· + 1)

/-- `Cipher(block, key)` (R602). -/
def cipher (nk : KeySize) (block key : List Byte) : List Byte :=
  let w := expand nk key
  let nr := nk.rounds
  let s := addRoundKey (loadState block) w 0
  let s := (middleRounds nr).foldl (cipherMiddleRound w) s
  storeState (cipherFinalRound w s nr)

/-- `InvCipher(block, key)` (R603): the middle rounds run downward. -/
def invCipher (nk : KeySize) (block key : List Byte) : List Byte :=
  let w := expand nk key
  let nr := nk.rounds
  let s := addRoundKey (loadState block) w nr
  let s := (middleRounds nr).reverse.foldl (decipherMiddleRound w) s
  storeState (decipherFinalRound w s)

/-- What a command computes (R705). -/
def runPipeline (op : Operation) (nk : KeySize) (block key : List Byte) : List Byte :=
  match op with
  | .cipher => cipher nk block key
  | .decipher => invCipher nk block key

/-- The round index a pipeline starts at: Cipher counts up from group 0, InvCipher down from group Nr (R605). -/
def firstRound (op : Operation) (nk : KeySize) : Nat :=
  match op with
  | .cipher => 0
  | .decipher => nk.rounds

/-- The round index a pipeline ends at (R605). -/
def lastRound (op : Operation) (nk : KeySize) : Nat :=
  match op with
  | .cipher => nk.rounds
  | .decipher => 0

/-- The State once the block is loaded and the first round-key group added (R602, R603). -/
def pipelineStart (op : Operation) (nk : KeySize) (w : List Quad) (block : List Byte) : Matrix :=
  addRoundKey (loadState block) w (firstRound op nk)

/-- The next round of a pipeline that is at round index `round` with State s: its new State and round index, or no
change once the last round is done. -/
def pipelineRound (op : Operation) (nk : KeySize) (w : List Quad) (s : Matrix) (round : Nat) : Matrix × Nat :=
  match op with
  | .cipher =>
    if round + 1 < nk.rounds then (cipherMiddleRound w s (round + 1), round + 1)
    else if round + 1 = nk.rounds then (cipherFinalRound w s nk.rounds, round + 1)
    else (s, round)
  | .decipher =>
    if 1 < round then (decipherMiddleRound w s (round - 1), round - 1)
    else if round = 1 then (decipherFinalRound w s, 0)
    else (s, round)

end Sys2Proof
end

