-- ==== Sys2Proof/Machine/Operands.lean ====
section
/-! DEFINITION. Operand assembly (spec/30_encoding.md R304): the fields of a command word, and the implicit data operands
KEYB, DINB and DOUTB in their registers (spec/00_scope.md R14, spec/20_memory.md R205). -/

namespace Sys2Proof.Machine

/-- OP = CW[3:0] (R101). -/
def opField (v : Word) : BitVec 4 := v.extractLsb' 0 4

/-- KEYLEN = CW[13:8], the declared key length in bytes (R101, R304). -/
def keyLenField (v : Word) : BitVec 6 := v.extractLsb' 8 6

/-- BLKLEN = CW[20:16], the declared block length in bytes (R101, R304). -/
def blkLenField (v : Word) : BitVec 5 := v.extractLsb' 16 5

/-- R700 step 4's test: `v[7:4] != 0 or v[15:14] != 0 or v[31:21] != 0`. -/
def reservedFieldsSet (v : Word) : Bool :=
  v.extractLsb' 4 4 != 0 || v.extractLsb' 14 2 != 0 || v.extractLsb' 21 11 != 0

/-- The key size a declared length selects; none for the 61 lengths that raise E_KEYLEN (R304, R500, R751). -/
def keySizeOf (keyLen : BitVec 6) : Option KeySize :=
  if keyLen = 16 then some .aes128
  else if keyLen = 24 then some .aes192
  else if keyLen = 32 then some .aes256
  else none

/-- BLKLEN is 16, the one legal block length (R304, R752). -/
def blockLengthOk (blkLen : BitVec 5) : Bool := blkLen == 16

/-- `KEYB(k) = KEY[k / 4][8(k mod 4)+7 : 8(k mod 4)]` (R14, R103). -/
def keyByte (s : State) (k : Nat) : Byte := byteLane ((s.key[k / 4]?).getD 0) (k % 4)

/-- `DINB(k)` (R14, R104). -/
def dinByte (s : State) (k : Nat) : Byte := byteLane ((s.din[k / 4]?).getD 0) (k % 4)

/-- `DOUTB(k)` (R14, R105). -/
def doutByte (s : State) (k : Nat) : Byte := byteLane ((s.dout[k / 4]?).getD 0) (k % 4)

/-- `[KEYB(0), .., KEYB(kl - 1)]`: the bytes past the key length are not read (R703). -/
def keyOperand (s : State) (nk : KeySize) : List Byte := (List.range nk.bytes).map (keyByte s)

/-- `[DINB(0), .., DINB(15)]` (R703). -/
def blockOperand (s : State) : List Byte := (List.range 16).map (dinByte s)

/-- The register j that holds bytes 4j..4j+3 of a byte sequence (R205). -/
def packedWord (bytes : List Byte) (j : Nat) : Word :=
  wordLe (bytes.getD (4 * j) 0) (bytes.getD (4 * j + 1) 0) (bytes.getD (4 * j + 2) 0) (bytes.getD (4 * j + 3) 0)

/-- DOUT[0..3] holding a 16-byte result (R105, R205). -/
def packedBlock (bytes : List Byte) : Vector Word 4 :=
  #v[packedWord bytes 0, packedWord bytes 1, packedWord bytes 2, packedWord bytes 3]

end Sys2Proof.Machine
end

