-- ==== Sys2Proof/Machine/Ops.lean ====
section
/-! DEFINITION. The named operations the meanings share: responding to the host, register writes, recording an error,
acceptance of a command and the processing of a command word (spec/46_commands.md R700-R703, spec/60_exceptions.md
R750-R759). -/

namespace Sys2Proof.Machine

/-- The host observes the response of its transaction (R18). -/
def respond (o : Observation) (s : State) : State := { s with observed := o :: s.observed }

/-- The effect f of a host write, which has none while reset is asserted (R800: "a host write has no effect"). -/
def hostWrite (f : State → State) (s : State) : State := if s.resetAsserted then s else f s

/-- `KEY[j] <- v` (R656). -/
def writeKey (j : Nat) (v : Word) (s : State) : State := { s with key := s.key.setIfInBounds j v }

/-- `DIN[j] <- v` (R658). -/
def writeDin (j : Nat) (v : Word) (s : State) : State := { s with din := s.din.setIfInBounds j v }

/-- A change of the stored STATUS bits. -/
def updateStatus (f : Status → Status) (s : State) : State := { s with status := f s.status }

/-- Taking an error (R15 `raise E_<name>`, R15 `respond BUSERR`, R750, R758): the four recorded conditions set their
STATUS bit, E_BUS is the response itself. Nothing else is saved, masked or changed: the engine has no trap. -/
def raise (e : ErrorCondition) (s : State) : State :=
  match e with
  | .bus => respond .busError s
  | e => updateStatus (·.record e) s

/-- A write to STATUS (R654): with the next command and reset, the way a recorded error is cleared (R759). -/
def writeStatus (v : Word) (s : State) : State := updateStatus (·.writeOneToClear v) s

/-- R700 step 3. -/
def clearOutcome (s : State) : State := updateStatus Status.clearOutcome s

/-- `Accept(op, kl)` (R703): the operand snapshot is taken and the engine becomes BUSY for LAT(op, nk) cycles. The
working state is created afresh from the snapshot (R113, R114; log 7). -/
def accept (op : Operation) (nk : KeySize) (s : State) : State :=
  let key := keyOperand s nk
  let blk := blockOperand s
  let w := expand nk key
  { s with
    eng :=
      { phase := .busy
        op := op
        nk := nk
        key := key
        blk := blk
        remaining := Config.lat op nk
        s := pipelineStart op nk w blk
        w := w
        round := firstRound op nk } }

/-- R700 steps 5 and 6: both length checks, each recorded on its own, and acceptance when neither failed. -/
def checkAndAccept (op : Operation) (keyLen : BitVec 6) (blkLen : BitVec 5) (s : State) : State :=
  let s := if (keySizeOf keyLen).isNone then raise .keyLen s else s
  let s := if blockLengthOk blkLen then s else raise .blkLen s
  if s.status.keyErr || s.status.blkErr then s
  else
    match keySizeOf keyLen with
    | some nk => accept op nk s
    | none => s

/-- A legally encoded operation (R707, R708): R700 step 2, then steps 3, 5 and 6. -/
def issueOperation (op : Operation) (keyLen : BitVec 6) (blkLen : BitVec 5) (s : State) : State :=
  if s.eng.phase = .busy then raise .overrun s else checkAndAccept op keyLen blkLen (clearOutcome s)

/-- An illegal command (R753, R754): R700 step 2, then steps 3 and 4. -/
def issueIllegal (s : State) : State :=
  if s.eng.phase = .busy then raise .overrun s else raise .illegal (clearOutcome s)

/-- `ProcessCommand(v)`, as R700 writes it. -/
def processCommand (v : Word) (s : State) : State :=
  let op := opField v
  if op = 0x0 then s
  else if s.eng.phase = .busy then raise .overrun s
  else
    let s := clearOutcome s
    if (op ≠ 0x1 ∧ op ≠ 0x2) ∨ reservedFieldsSet v then raise .illegal s
    else checkAndAccept (if op = 0x1 then .cipher else .decipher) (keyLenField v) (blkLenField v) s

end Sys2Proof.Machine
end

