-- ==== Sys2Proof/Machine/Engine.lean ====
section
/-! DEFINITION. The steps of the engine and of the reset input: completion (spec/46_commands.md R705, R706), the rounds
inside it (spec/10_state.md R115, R116), the passing of a clock cycle (R112, R706), and reset
(spec/70_reset_and_hazards.md R800, R802). -/

namespace Sys2Proof.Machine

/-- `Complete()` (R705): the result of the snapshot goes to DOUT, BUSY is cleared and DONE set, in one step; OVR stays.
The working state is discarded (log 7), no cycle is left to wait for (log 6), the snapshot is left as it is (log 9). -/
def complete (s : State) : State :=
  { s with
    dout := packedBlock (runPipeline s.eng.op s.eng.nk s.eng.blk s.eng.key)
    status := { s.status with done := true }
    eng := { s.eng with phase := .idle, remaining := 0, s := zeroMatrix, w := [], round := 0 } }

/-- The engine's step, enabled only while BUSY (R705, R706). -/
def completionStep (s : State) : State := if s.eng.phase = .busy then complete s else s

/-- One round of the pipeline in progress, on the working state only (R107, R115; log 7). -/
def roundStep (s : State) : State :=
  if s.eng.phase = .busy then
    let p := pipelineRound s.eng.op s.eng.nk s.eng.w s.eng.s s.eng.round
    { s with eng := { s.eng with s := p.1, round := p.2 } }
  else s

/-- One clock cycle passes: a command completes at the end of its last cycle, so that the completion "is visible to every
transaction in cycle t0 + LAT or later, and to none before" (R706; log 5). -/
def clockStep (s : State) : State :=
  if s.eng.phase = .busy then
    if s.eng.remaining ≤ 1 then complete s
    else { s with eng := { s.eng with remaining := s.eng.remaining - 1 } }
  else s

/-- Every piece of the engine's state at its reset value (R800, R125). The reset input itself, the steps still to come
and what the host has observed are outside the engine and stay (log 12). -/
def resetStep (s : State) : State :=
  { State.reset with resetAsserted := s.resetAsserted, schedule := s.schedule, observed := s.observed }

/-- The reset input is asserted, which puts all state at its reset value, or released (R800). -/
def resetInputStep (asserted : Bool) (s : State) : State :=
  if asserted then { resetStep s with resetAsserted := true } else { s with resetAsserted := false }

end Sys2Proof.Machine
end

