-- ==== Sys2Proof/Machine/Command.lean ====
section
/-! DEFINITION. Meanings of the command-word rows (spec/46_commands.md, spec/60_exceptions.md R753). A command word is
the data of a write to CTRL, so each is a host write (R800). -/

namespace Sys2Proof.Machine

/-- NOP (R701): no effect at any time, whatever bits 31:4 are. -/
def execNop (_ignored : BitVec 28) (s : State) : Host.Outcome State Fault Refusal := .next s

/-- CIPHER (R707). -/
def execCipher (keyLen : BitVec 6) (blkLen : BitVec 5) (s : State) : Host.Outcome State Fault Refusal :=
  .next (hostWrite (issueOperation .cipher keyLen blkLen) s)

/-- DECIPHER (R708). -/
def execDecipher (keyLen : BitVec 6) (blkLen : BitVec 5) (s : State) : Host.Outcome State Fault Refusal :=
  .next (hostWrite (issueOperation .decipher keyLen blkLen) s)

/-- ILLEGAL (R753; E_OVERRUN when busy, R754). -/
def execIllegal (_cw : Word) (s : State) : Host.Outcome State Fault Refusal :=
  .next (hostWrite issueIllegal s)

end Sys2Proof.Machine
end

