-- ==== Sys2Proof/Machine/Transaction.lean ====
section
/-! DEFINITION. Meanings of the transaction-descriptor rows (spec/45_bus_transactions.md R650-R663). -/

namespace Sys2Proof.Machine

/-- RD CTRL (R651): CTRL stores nothing and reads as 0. -/
def execRdCtrl (s : State) : Host.Outcome State Fault Refusal := .next (respond (.value 0x00000000) s)

/-- WR CTRL (R652): `ProcessCommand(v)`. -/
def execWrCtrl (data : Word) (s : State) : Host.Outcome State Fault Refusal :=
  .next (hostWrite (processCommand data) s)

/-- RD STATUS (R653). Not clear-on-read. -/
def execRdStatus (s : State) : Host.Outcome State Fault Refusal :=
  .next (respond (.value (statusWord s.eng.phase s.status)) s)

/-- WR STATUS (R654), write one to clear. -/
def execWrStatus (data : Word) (s : State) : Host.Outcome State Fault Refusal :=
  .next (hostWrite (writeStatus data) s)

/-- RD KEY[j], j = 0..3 (R655). -/
def execRdKeyLow (j : Fin 4) (s : State) : Host.Outcome State Fault Refusal :=
  .next (respond (.value s.key[j.val]) s)

/-- RD KEY[4 + j], j = 0..3 (R655). -/
def execRdKeyHigh (j : Fin 4) (s : State) : Host.Outcome State Fault Refusal :=
  .next (respond (.value s.key[4 + j.val]) s)

/-- WR KEY[j], j = 0..3 (R656). -/
def execWrKeyLow (j : Fin 4) (data : Word) (s : State) : Host.Outcome State Fault Refusal :=
  .next (hostWrite (writeKey j.val data) s)

/-- WR KEY[4 + j], j = 0..3 (R656). -/
def execWrKeyHigh (j : Fin 4) (data : Word) (s : State) : Host.Outcome State Fault Refusal :=
  .next (hostWrite (writeKey (4 + j.val) data) s)

/-- RD DIN[j] (R657). -/
def execRdDin (j : Fin 4) (s : State) : Host.Outcome State Fault Refusal :=
  .next (respond (.value s.din[j.val]) s)

/-- WR DIN[j] (R658). -/
def execWrDin (j : Fin 4) (data : Word) (s : State) : Host.Outcome State Fault Refusal :=
  .next (hostWrite (writeDin j.val data) s)

/-- RD DOUT[j] (R659): while BUSY, the result of the previous completed command. -/
def execRdDout (j : Fin 4) (s : State) : Host.Outcome State Fault Refusal :=
  .next (respond (.value s.dout[j.val]) s)

/-- WR DOUT[j] (R660): no effect. -/
def execWrDout (_j : Fin 4) (_data : Word) (s : State) : Host.Outcome State Fault Refusal := .next s

/-- RD at a reserved offset (R661): returns 0. -/
def execRdRsvd (_index : BitVec 6) (s : State) : Host.Outcome State Fault Refusal :=
  .next (respond (.value 0x00000000) s)

/-- WR at a reserved offset (R662): no effect. -/
def execWrRsvd (_index : BitVec 6) (_data : Word) (s : State) : Host.Outcome State Fault Refusal := .next s

/-- A misaligned 32-bit transaction (R650, R663): E_BUS, no register changes, a read returns no value. -/
def execBusErrMisaligned (_wdata : Option Word) (_off : BitVec 8) (s : State) : Host.Outcome State Fault Refusal :=
  .next (raise .bus s)

/-- A narrow transaction (R650, R663): E_BUS, no register changes, a read returns no value. -/
def execBusErrNarrow (_wdata : Option Word) (_half : Bool) (_off : BitVec 8) (s : State) :
    Host.Outcome State Fault Refusal := .next (raise .bus s)

end Sys2Proof.Machine
end

