-- ==== Sys2Proof/Machine/Dispatch.lean ====
section
/-! DEFINITION. exec: one arm per constructor of Instr, each one call of its meaning. -/

namespace Sys2Proof.Machine

def exec (i : Instr) (s : State) : Host.Outcome State Fault Refusal :=
  match i with
  -- command words (Machine/Command.lean)
  | .nop ignored => Sys2Proof.Machine.execNop ignored s
  | .cipher keyLen blkLen => Sys2Proof.Machine.execCipher keyLen blkLen s
  | .decipher keyLen blkLen => Sys2Proof.Machine.execDecipher keyLen blkLen s
  | .illegal cw => Sys2Proof.Machine.execIllegal cw s
  -- transaction descriptors (Machine/Transaction.lean)
  | .rdCtrl => Sys2Proof.Machine.execRdCtrl s
  | .wrCtrl data => Sys2Proof.Machine.execWrCtrl data s
  | .rdStatus => Sys2Proof.Machine.execRdStatus s
  | .wrStatus data => Sys2Proof.Machine.execWrStatus data s
  | .rdKeyLow j => Sys2Proof.Machine.execRdKeyLow j s
  | .rdKeyHigh j => Sys2Proof.Machine.execRdKeyHigh j s
  | .wrKeyLow j data => Sys2Proof.Machine.execWrKeyLow j data s
  | .wrKeyHigh j data => Sys2Proof.Machine.execWrKeyHigh j data s
  | .rdDin j => Sys2Proof.Machine.execRdDin j s
  | .wrDin j data => Sys2Proof.Machine.execWrDin j data s
  | .rdDout j => Sys2Proof.Machine.execRdDout j s
  | .wrDout j data => Sys2Proof.Machine.execWrDout j data s
  | .rdRsvd index => Sys2Proof.Machine.execRdRsvd index s
  | .wrRsvd index data => Sys2Proof.Machine.execWrRsvd index data s
  | .busErrMisaligned wdata off => Sys2Proof.Machine.execBusErrMisaligned wdata off s
  | .busErrNarrow wdata half off => Sys2Proof.Machine.execBusErrNarrow wdata half off s

end Sys2Proof.Machine
end

