-- ==== Sys2Proof/Machine/Port.lean ====
section
/-! DEFINITION. The port: how a waiting transaction is decoded and run, and what each kind of event does
(spec/20_memory.md R211, spec/30_encoding.md R302, spec/00_scope.md R17). -/

namespace Sys2Proof.Machine

/-- Perform one bus transaction: refused by name when its descriptor spells none (R302), the meaning of its row
otherwise. -/
def runAccess (td : BitVec 16) (data : Word) (s : State) : Host.Outcome State Fault Refusal :=
  match decodeTransaction td data with
  | .ok i => exec i s
  | .error e => .refused (.notATransaction e)

/-- One step of one agent (R17). -/
def takeEvent (e : Event) (s : State) : Host.Outcome State Fault Refusal :=
  match e with
  | .access td data => runAccess td data s
  | .completion => .next (completionStep s)
  | .round => .next (roundStep s)
  | .clock => .next (clockStep s)
  | .reset => .next (resetStep s)
  | .resetInput asserted => .next (resetInputStep asserted s)

/-- The event at the head of the schedule has been taken from it. -/
def dequeued (rest : List Event) (s : State) : State := { s with schedule := rest }

/-- With no event waiting, the engine's step is taken if it is enabled (weak fairness, R706), and an idle engine stays
as it is (log 3). -/
def stepExhausted (s : State) : State := completionStep s

/-- The transaction that carries an object of R300 to the engine: a command word is the data of a write to CTRL, whose
descriptor is 0x8200 (R652, R214). -/
def transactionOf : CodeWord → Event
  | .command cw => .access 0x8200 cw
  | .transaction td data => .access td data

/-- The host issues the transaction of a table word next (log 2). -/
def issueTableWord (nbits w : Nat) (s : State) : State :=
  match codeWordOfTable nbits w with
  | some c => { s with schedule := transactionOf c :: s.schedule }
  | none => s

end Sys2Proof.Machine
end

