-- ==== Sys2Proof/Machine/Step.lean ====
section
/-! DEFINITION. One step of the machine: the next event of the total order of spec/20_memory.md R211. -/

namespace Sys2Proof.Machine

/-- One step. -/
def step (s : State) : Host.Outcome State Fault Refusal :=
  match s.schedule with
  | [] => .next (stepExhausted s)
  | e :: rest => takeEvent e (dequeued rest s)

/-- s with the transaction of a table word placed first in the schedule, so that the very next step runs it (log 2). -/
def State.withFetchWord (s : State) (nbits w : Nat) : State := issueTableWord nbits w s

end Sys2Proof.Machine
end

