-- ==== Sys2Proof/Machine/Script.lean ====
section
/-! DEFINITION. The host's side of the port: the script statements and pseudo-instructions of spec/30_encoding.md R309,
R310 as the bus transactions they expand to, and a bus access by system address (spec/20_memory.md R200, R209). -/

namespace Sys2Proof.Machine

/-- `<reg>` of R309. -/
inductive Register where
  | ctrl
  | status
  | key (j : Fin 8)
  | din (j : Fin 4)
  | dout (j : Fin 4)
deriving DecidableEq, Repr

/-- The register's byte offset from BASE (R100, R201). -/
def Register.offset : Register → BitVec 8
  | .ctrl => 0x00
  | .status => 0x04
  | .key j => 0x10 + 4 * BitVec.ofNat 8 j.val
  | .din j => 0x30 + 4 * BitVec.ofNat 8 j.val
  | .dout j => 0x40 + 4 * BitVec.ofNat 8 j.val

/-- `WR @<off>, <value>` and `RD @<off>`: 32-bit accesses at a raw offset. -/
def writeAt (off : BitVec 8) (v : Word) : Event := .access (descriptor true 2 off) v
def readAt (off : BitVec 8) : Event := .access (descriptor false 2 off) 0

/-- `WR <reg>, <value>` and `RD <reg>`. -/
def writeRegister (r : Register) (v : Word) : Event := writeAt r.offset v
def readRegister (r : Register) : Event := readAt r.offset

/-- `WR8 <off>, <value>` and `RD16 <off>`, the narrow accesses. -/
def write8 (off : BitVec 8) (v : Byte) : Event := .access (descriptor true 0 off) (v.setWidth 32)
def read16 (off : BitVec 8) : Event := .access (descriptor false 1 off) 0

/-- `(result & <mask>) = <value>`, what ends a POLL. -/
def pollEnds (mask value result : Word) : Bool := result &&& mask == value

/-- `POLL <reg>, <mask>, <value>` that ends at its n-th read: the loop is the host's own control flow (R711), so the
schedule holds the reads it performs (log 20). -/
def pollReads (r : Register) (n : Nat) : List Event := List.replicate n (readRegister r)

/-- Results, oldest first, that a POLL of R309 reads: the last one ends it and no earlier one does. -/
def isPollTrace (mask value : Word) : List Word → Bool
  | [] => false
  | [v] => pollEnds mask value v
  | v :: vs => !pollEnds mask value v && isPollTrace mask value vs

/-- `CIPHER128`, `CIPHER192`, `CIPHER256`. -/
def cipherCommand : KeySize → Event
  | .aes128 => writeRegister .ctrl 0x00101001
  | .aes192 => writeRegister .ctrl 0x00101801
  | .aes256 => writeRegister .ctrl 0x00102001

/-- `DECIPHER128`, `DECIPHER192`, `DECIPHER256`. -/
def decipherCommand : KeySize → Event
  | .aes128 => writeRegister .ctrl 0x00101002
  | .aes192 => writeRegister .ctrl 0x00101802
  | .aes256 => writeRegister .ctrl 0x00102002

/-- `WAIT` that ends at its n-th read of STATUS. -/
def wait (n : Nat) : List Event := pollReads .status n

/-- `LOADKEY b0 .. b(L-1)`. -/
def loadKey (bytes : List Byte) : List Event :=
  (List.range (bytes.length / 4)).map fun j => writeAt (0x10 + 4 * BitVec.ofNat 8 j) (packedWord bytes j)

/-- `LOADBLK b0 .. b15`. -/
def loadBlock (bytes : List Byte) : List Event :=
  (List.range 4).map fun j => writeAt (0x30 + 4 * BitVec.ofNat 8 j) (packedWord bytes j)

/-- `READBLK`. -/
def readBlock : List Event :=
  [readRegister (.dout 0), readRegister (.dout 1), readRegister (.dout 2), readRegister (.dout 3)]

/-- `CLEARSTATUS`. -/
def clearStatus : Event := writeRegister .status 0x0000003E

/-- A bus access by system address: a transaction of this engine when the address lies in the window at BASE, and the
platform's own business otherwise (R200, R209). -/
def accessAt (addr : Nat) (write : Bool) (size : BitVec 2) (data : Word) : Option Event :=
  if Config.base ≤ addr ∧ addr < Config.base + 256 then
    some (.access (descriptor write size (BitVec.ofNat 8 (addr - Config.base))) data)
  else none

end Sys2Proof.Machine
end

