-- ==== Sys2Proof/Safety.lean ====
section
/-! DEFINITION. The terms claims are stated in: which descriptors name a transaction, what an offset of the window holds,
the invariants of a state that reset and steps reach, and when two states look the same to every host. -/

namespace Sys2Proof.Machine

/-- The descriptor names a transaction (R302): reserved bits zero and SIZE not 3. -/
def SpellsTransaction (td : BitVec 16) : Prop := td.extractLsb' 10 5 = 0 ∧ td.extractLsb' 8 2 ≠ 3

/-- Every access still to come names a transaction. -/
def SchedulesTransactions (es : List Event) : Prop :=
  ∀ td data, Event.access td data ∈ es → SpellsTransaction td

/-- What a legal read of the window returns at an offset, by the address map of R201. -/
def windowValue (s : State) (off : BitVec 8) : Word :=
  let o := off.toNat
  if o = 0x00 then 0
  else if o = 0x04 then statusWord s.eng.phase s.status
  else if 0x10 ≤ o ∧ o ≤ 0x2C then (s.key[(o - 0x10) / 4]?).getD 0
  else if 0x30 ≤ o ∧ o ≤ 0x3C then (s.din[(o - 0x30) / 4]?).getD 0
  else if 0x40 ≤ o ∧ o ≤ 0x4C then (s.dout[(o - 0x40) / 4]?).getD 0
  else 0

/-- The offset is reserved: 0x08, 0x0C or 0x50..0xFC (R201). -/
def ReservedOffset (off : BitVec 8) : Prop :=
  off.toNat % 4 = 0 ∧ (off.toNat = 0x08 ∨ off.toNat = 0x0C ∨ 0x50 ≤ off.toNat)

/-- The snapshot holds 4*Nk key bytes and 16 block bytes (R111). -/
def SnapshotSized (s : State) : Prop := s.eng.key.length = s.eng.nk.bytes ∧ s.eng.blk.length = 16

/-- DONE, KEYERR, BLKERR and ILLEGAL are never 1 together with BUSY (R653, corner cases). -/
def OutcomeExcludesBusy (s : State) : Prop :=
  s.eng.phase = .busy →
    s.status.done = false ∧ s.status.keyErr = false ∧ s.status.blkErr = false ∧ s.status.illegal = false

/-- "While reset is asserted, every piece of state is held at its reset value" (R800; for the pieces R125 leaves
unspecified, at the model's, log 8). -/
def HeldInReset (s : State) : Prop :=
  s.resetAsserted = true →
    s.key = State.reset.key ∧ s.din = State.reset.din ∧ s.dout = State.reset.dout ∧ s.status = Status.reset ∧
      s.eng = Engine.reset

/-- A busy engine has at least one cycle left, an idle one none (R112, R706; log 6). -/
def CyclesLeft (s : State) : Prop :=
  match s.eng.phase with
  | .busy => 0 < s.eng.remaining
  | .idle => s.eng.remaining = 0

/-- The working state after k rounds of a pipeline. -/
def workingAfter (op : Operation) (nk : KeySize) (w : List Quad) (blk : List Byte) : Nat → Matrix × Nat
  | 0 => (pipelineStart op nk w blk, firstRound op nk)
  | k + 1 =>
    let p := workingAfter op nk w blk k
    pipelineRound op nk w p.1 p.2

/-- While BUSY the working state is that of the snapshot's own pipeline after some of its rounds; while IDLE there is
none (R113-R115; log 7). -/
def WorkingFollowsSnapshot (s : State) : Prop :=
  match s.eng.phase with
  | .busy =>
    s.eng.w = expand s.eng.nk s.eng.key ∧
      ∃ k, (s.eng.s, s.eng.round) = workingAfter s.eng.op s.eng.nk s.eng.w s.eng.blk k
  | .idle => s.eng.s = zeroMatrix ∧ s.eng.w = [] ∧ s.eng.round = 0

/-- The invariant of the machine. -/
structure State.Inv (s : State) : Prop where
  snapshotSized : SnapshotSized s
  outcomeExcludesBusy : OutcomeExcludesBusy s
  heldInReset : HeldInReset s
  cyclesLeft : CyclesLeft s
  workingFollowsSnapshot : WorkingFollowsSnapshot s

/-- The two states agree in everything but the working state, and but for the snapshot while IDLE: R18's "not the
internal State matrix, the expanded key, the round counter or the operand snapshot". -/
structure LookAlike (s t : State) : Prop where
  key : s.key = t.key
  din : s.din = t.din
  dout : s.dout = t.dout
  status : s.status = t.status
  phase : s.eng.phase = t.eng.phase
  remaining : s.eng.remaining = t.eng.remaining
  snapshot : s.eng.phase = .busy →
    s.eng.op = t.eng.op ∧ s.eng.nk = t.eng.nk ∧ s.eng.key = t.eng.key ∧ s.eng.blk = t.eng.blk
  resetAsserted : s.resetAsserted = t.resetAsserted
  schedule : s.schedule = t.schedule
  observed : s.observed = t.observed

/-- The two outcomes are alike: both go on to states that look alike, or both stop for the same reason. -/
def OutcomesAlike : Host.Outcome State Fault Refusal → Host.Outcome State Fault Refusal → Prop
  | .next s, .next t => LookAlike s t
  | .refused r, .refused q => r = q
  | _, _ => False

/-- n steps from s, as the host runs them. -/
def run (n : Nat) (s : State) : Host.Outcome State Fault Refusal :=
  match n with
  | 0 => .next s
  | n + 1 =>
    match step s with
    | .next t => run n t
    | .fault r => .fault r
    | .refused r => .refused r

end Sys2Proof.Machine
end

