-- ==== Sys2Proof/Certificates/Slice0/Obligations.lean ====
section
/-! DEFINITION. The statements for the provers, in the terms of Safety.lean. "Released" below means the reset input is
not asserted (spec/70_reset_and_hazards.md R800: while it is, a host write has no effect). -/

open Sys2Proof Sys2Proof.Machine

/-! ### Encoding -/

/-- R300-R306, R311: no bit of an encoding is dropped. -/
def Obligations.DecodeOfEncodeIsIdentity : Prop :=
  ∀ i : Instr, i.wellFormed = true → decode (encode i) = .ok i

/-- R300-R306: each word has one meaning; the data word of a read is no part of the transaction (log 14). -/
def Obligations.EncodeOfDecodeIsIdentity : Prop :=
  (∀ cw, (decodeCommand cw).wellFormed = true ∧ encode (decodeCommand cw) = .command cw) ∧
  ∀ td data i, decodeTransaction td data = .ok i →
    i.wellFormed = true ∧ encode i = .transaction td (if td.getLsbD 15 then data else 0)

/-- R311: "A decoder takes the first matching row in table order", and the rows before the first-match ones never
overlap. -/
def Obligations.DecoderTakesFirstMatchingRow : Prop :=
  (∀ c i, decode c = .ok i → firstRow c = rowOf i) ∧
  (∀ cw, ((commandRows.take 3).filter (·.hits cw)).length ≤ 1) ∧
  ∀ td, ((transactionRows.take 12).filter (·.hits td)).length ≤ 1

/-- R302, all three points. Two things are the model's own: a descriptor with reserved bits and SIZE = 3 is refused for the
reserved bits (log 16), and E_BUS is answered while reset is asserted too (log 13). -/
def Obligations.DescriptorsRefusedAnsweredOrSelected : Prop :=
  ∀ (s : State) td data rest, s.schedule = .access td data :: rest →
    (td.extractLsb' 10 5 ≠ 0 → step s = .refused (.notATransaction .reservedBitsSet)) ∧
    (td.extractLsb' 10 5 = 0 → td.extractLsb' 8 2 = 3 → step s = .refused (.notATransaction .sizeNotATransaction)) ∧
    (td.extractLsb' 10 5 = 0 →
      td.extractLsb' 8 2 = 0 ∨ td.extractLsb' 8 2 = 1 ∨ (td.extractLsb' 8 2 = 2 ∧ td.extractLsb' 0 2 ≠ 0) →
      step s = .next { s with schedule := rest, observed := .busError :: s.observed }) ∧
    (td.extractLsb' 10 5 = 0 → td.extractLsb' 8 2 = 2 → td.extractLsb' 0 2 = 0 →
      ∃ i row, decodeTransaction td data = .ok i ∧ transactionRows.find? (·.hits td) = some row ∧
        rowOf i = (none, some row) ∧ row.mnemonic ≠ "BUSERR")

/-- R307 and the encodings of spec/45_bus_transactions.md, on words written out from the spec. -/
def Obligations.SpecWordsDecode : Prop :=
  decode (.command 0xFFFFFFF0) = .ok (.nop 0xFFFFFFF) ∧
  decode (.command 0x00101001) = .ok (.cipher 16 16) ∧
  decode (.command 0x00101801) = .ok (.cipher 24 16) ∧
  decode (.command 0x00102002) = .ok (.decipher 32 16) ∧
  decode (.command 0x80101001) = .ok (.illegal 0x80101001) ∧
  decode (.transaction 0x0200 0) = .ok .rdCtrl ∧
  decode (.transaction 0x8200 0x00101001) = .ok (.wrCtrl 0x00101001) ∧
  decode (.transaction 0x0204 0) = .ok .rdStatus ∧
  decode (.transaction 0x8204 0x3E) = .ok (.wrStatus 0x3E) ∧
  decode (.transaction 0x0210 0) = .ok (.rdKeyLow 0) ∧
  decode (.transaction 0x822C 0x12345678) = .ok (.wrKeyHigh 3 0x12345678) ∧
  decode (.transaction 0x823C 0x10325476) = .ok (.wrDin 3 0x10325476) ∧
  decode (.transaction 0x0240 0) = .ok (.rdDout 0) ∧
  decode (.transaction 0x02FC 0) = .ok (.rdRsvd 0x3F) ∧
  decode (.transaction 0x0212 0) = .ok (.busErrMisaligned none 0x12) ∧
  decode (.transaction 0x8010 0xAA) = .ok (.busErrNarrow (some 0xAA) false 0x10)

/-! ### Steps -/

/-- R211, R302: the transaction at the head of the schedule is taken from it and runs the instruction it decodes to. -/
def Obligations.StepRunsDecodedInstruction : Prop :=
  ∀ (s : State) td data rest i, s.schedule = .access td data :: rest → decodeTransaction td data = .ok i →
    step s = exec i { s with schedule := rest }

/-- R652, R300: "a command word CW ... is the 32-bit write data of a TD that writes offset 0x00". R700's pseudocode on the
raw word does what the word's own row says. -/
def Obligations.CtrlWriteRunsItsCommandWord : Prop :=
  (∀ (s : State) v, exec (.wrCtrl v) s = exec (decodeCommand v) s) ∧
  ∀ (s : State) v rest, s.schedule = .access 0x8200 v :: rest →
    step s = exec (decodeCommand v) { s with schedule := rest }

/-- R758 with R302: no instruction stops the machine, and a step stops exactly when the next event is an access whose
descriptor spells no transaction, for the decoder's reason. -/
def Obligations.StepStopsOnlyOnRefusedDescriptor : Prop :=
  (∀ i (s : State), ∃ t, exec i s = .next t) ∧
  (∀ (s : State) td data rest, s.schedule = .access td data :: rest → ¬ SpellsTransaction td →
    ∃ e, decodeTransaction td data = .error e ∧ step s = .refused (.notATransaction e)) ∧
  ∀ s : State, (∀ td data rest, s.schedule = .access td data :: rest → SpellsTransaction td) → ∃ t, step s = .next t

/-- R211: with no event left an idle engine stays, and each event leaves the schedule when it is taken. -/
def Obligations.StepTakesOneEvent : Prop :=
  ∀ s t : State, step s = .next t →
    t.schedule = s.schedule.tail ∧ ∃ new, t.observed = new ++ s.observed ∧ new.length ≤ 1

/-! ### Commands -/

/-- R701. -/
def Obligations.NopHasNoEffect : Prop :=
  (∀ x (s : State), exec (.nop x) s = .next s) ∧
  ∀ v, v.extractLsb' 0 4 = 0 →
    decodeCommand v = .nop (v.extractLsb' 4 28) ∧ ∀ s : State, exec (.wrCtrl v) s = .next s

/-- R702. -/
def Obligations.BusyCommandIsDiscarded : Prop :=
  ∀ s : State, s.resetAsserted = false → s.eng.phase = .busy →
    (∀ v, v.extractLsb' 0 4 ≠ 0 → exec (.wrCtrl v) s = .next { s with status := { s.status with ovr := true } }) ∧
    (∀ kl bl, exec (.cipher kl bl) s = .next { s with status := { s.status with ovr := true } } ∧
      exec (.decipher kl bl) s = .next { s with status := { s.status with ovr := true } }) ∧
    ∀ cw, exec (.illegal cw) s = .next { s with status := { s.status with ovr := true } }

/-- R703, R707, R708, R111: acceptance takes the snapshot byte by byte, for both operations and every key size, and
changes nothing outside STATUS and the engine. -/
def Obligations.ValidCommandIsAccepted : Prop :=
  ∀ (s : State) op nk i, s.resetAsserted = false → s.eng.phase = .idle →
    (op = .cipher ∧ i = .cipher (BitVec.ofNat 6 (4 * nk.words)) 16 ∨
      op = .decipher ∧ i = .decipher (BitVec.ofNat 6 (4 * nk.words)) 16) →
    ∃ t, exec i s = .next t ∧
      t = { s with
        status := { done := false, keyErr := false, blkErr := false, illegal := false, ovr := s.status.ovr }
        eng := t.eng } ∧
      t.eng.phase = .busy ∧ t.eng.op = op ∧ t.eng.nk = nk ∧ t.eng.remaining = Config.lat op nk ∧
      0 < t.eng.remaining ∧
      t.eng.key.length = 4 * nk.words ∧ t.eng.blk.length = 16 ∧
      (∀ j n, j < nk.words → n < 4 →
        t.eng.key[4 * j + n]? = s.key[j]?.map (·.extractLsb' (8 * n) 8)) ∧
      ∀ j n, j < 4 → n < 4 → t.eng.blk[4 * j + n]? = s.din[j]?.map (·.extractLsb' (8 * n) 8)

/-- R751, R752: both length errors, each on its own condition; the command is not accepted. -/
def Obligations.InvalidLengthsAreRecorded : Prop :=
  ∀ (s : State) kl bl, s.resetAsserted = false → s.eng.phase = .idle →
    (kl.toNat ∉ [16, 24, 32] ∨ bl.toNat ≠ 16) →
    ∀ i ∈ [Instr.cipher kl bl, Instr.decipher kl bl],
      exec i s = .next { s with
        status :=
          { done := false
            keyErr := decide (kl.toNat ∉ [16, 24, 32])
            blkErr := decide (bl.toNat ≠ 16)
            illegal := false
            ovr := s.status.ovr } }

/-- R753. -/
def Obligations.IllegalCommandRecordsOnlyIllegal : Prop :=
  ∀ (s : State) v, s.resetAsserted = false → s.eng.phase = .idle →
    (3 ≤ (v.extractLsb' 0 4).toNat ∨
      (v.extractLsb' 0 4 ≠ 0 ∧ (v.extractLsb' 4 4 ≠ 0 ∨ v.extractLsb' 14 2 ≠ 0 ∨ v.extractLsb' 21 11 ≠ 0))) →
    ∀ i ∈ [Instr.wrCtrl v, Instr.illegal v],
      exec i s = .next { s with
        status := { done := false, keyErr := false, blkErr := false, illegal := true, ovr := s.status.ovr } }

/-- R757, R700: what one CTRL write reports, bit by bit, for every word and every released state. -/
def Obligations.CtrlWriteReportsInPriorityOrder : Prop :=
  ∀ (s : State) v, s.resetAsserted = false →
    ∃ t, exec (.wrCtrl v) s = .next t ∧
      let nonNop := v.extractLsb' 0 4 != 0
      let busy := s.eng.phase.busyBit
      let kl := (v.extractLsb' 8 6).toNat
      let legal := !illegalCommand v
      t.status.ovr = (s.status.ovr || (nonNop && busy)) ∧
      (nonNop = false ∨ busy = true →
        t.status = { s.status with ovr := t.status.ovr } ∧ t.eng = s.eng) ∧
      (nonNop = true ∧ busy = false →
        t.status.done = false ∧ t.status.illegal = !legal ∧
        t.status.keyErr = (legal && decide (kl ∉ [16, 24, 32])) ∧
        t.status.blkErr = (legal && (v.extractLsb' 16 5).toNat != 16) ∧
        (t.eng.phase = .busy ↔
          t.status.illegal = false ∧ t.status.keyErr = false ∧ t.status.blkErr = false))

/-- R710: a rejected command touches no operand, no result and starts no computation. -/
def Obligations.RejectedCommandStartsNothing : Prop :=
  ∀ (s : State) v,
    (v.extractLsb' 0 4 ≠ 0 ∧ s.eng.phase = .busy) ∨ illegalCommand v = true ∨
      (v.extractLsb' 8 6).toNat ∉ [16, 24, 32] ∨ v.extractLsb' 16 5 ≠ 16 →
    ∃ t, exec (.wrCtrl v) s = .next t ∧ t.key = s.key ∧ t.din = s.din ∧ t.dout = s.dout ∧ t.eng = s.eng

/-- The frame of the command words and of WR.CTRL (R700, R703): STATUS and the engine only, and OVR is never
cleared. -/
def Obligations.CommandsLeaveRegistersAlone : Prop :=
  ∀ (s : State) kl bl v x,
    ∀ i ∈ [Instr.nop x, .cipher kl bl, .decipher kl bl, .illegal v, .wrCtrl v],
      ∃ t, exec i s = .next t ∧ t = { s with status := t.status, eng := t.eng } ∧
        (s.status.ovr = true → t.status.ovr = true)

/-! ### Register transactions -/

/-- R651, R653, R655, R657, R659, R661: every read returns its register, and changes nothing (R208). -/
def Obligations.ReadsReturnTheRegister : Prop :=
  ∀ s : State,
    exec .rdCtrl s = .next { s with observed := .value 0 :: s.observed } ∧
    (∃ v : Word, exec .rdStatus s = .next { s with observed := .value v :: s.observed } ∧
      v.getLsbD 0 = decide (s.eng.phase = .busy) ∧ v.getLsbD 1 = s.status.done ∧ v.getLsbD 2 = s.status.keyErr ∧
      v.getLsbD 3 = s.status.blkErr ∧ v.getLsbD 4 = s.status.illegal ∧ v.getLsbD 5 = s.status.ovr ∧
      v.extractLsb' 6 26 = 0) ∧
    (∀ j : Fin 4,
      exec (.rdKeyLow j) s = .next { s with observed := .value s.key[j.val] :: s.observed } ∧
      exec (.rdKeyHigh j) s = .next { s with observed := .value s.key[4 + j.val] :: s.observed } ∧
      exec (.rdDin j) s = .next { s with observed := .value s.din[j.val] :: s.observed } ∧
      exec (.rdDout j) s = .next { s with observed := .value s.dout[j.val] :: s.observed }) ∧
    ∀ index, exec (.rdRsvd index) s = .next { s with observed := .value 0 :: s.observed }

/-- R201, R650: an aligned 32-bit read at any offset of the window returns what the address map puts there. -/
def Obligations.WindowReadFollowsAddressMap : Prop :=
  ∀ (s : State) off data rest, off.toNat % 4 = 0 →
    s.schedule = .access (descriptor false 2 off) data :: rest →
    step s = .next { s with schedule := rest, observed := .value (windowValue s off) :: s.observed }

/-- R656, R658: a KEY or DIN write changes the addressed register and nothing else; its bytes are KEYB and DINB. -/
def Obligations.OperandWritesStoreOneRegister : Prop :=
  ∀ (s : State) v rest, s.resetAsserted = false →
    (∀ j : Fin 8, s.schedule = .access (0x8210 + 4 * BitVec.ofNat 16 j.val) v :: rest →
      ∃ t, step s = .next t ∧ t = { s with schedule := rest, key := t.key } ∧
        (∀ k : Fin 8, t.key[k.val] = if k = j then v else s.key[k.val]) ∧
        ∀ n, n < 4 → keyByte t (4 * j.val + n) = v.extractLsb' (8 * n) 8) ∧
    (∀ j : Fin 4, s.schedule = .access (0x8230 + 4 * BitVec.ofNat 16 j.val) v :: rest →
      ∃ t, step s = .next t ∧ t = { s with schedule := rest, din := t.din } ∧
        (∀ k : Fin 4, t.din[k.val] = if k = j then v else s.din[k.val]) ∧
        ∀ n, n < 4 → dinByte t (4 * j.val + n) = v.extractLsb' (8 * n) 8)

/-- R656, R658, per instruction. -/
def Obligations.OperandWriteInstructionsComplete : Prop :=
  ∀ (s : State) (j : Fin 4) v, s.resetAsserted = false →
    (∃ t, exec (.wrKeyLow j v) s = .next t ∧ t = { s with key := t.key } ∧
      ∀ k : Fin 8, t.key[k.val] = if k.val = j.val then v else s.key[k.val]) ∧
    (∃ t, exec (.wrKeyHigh j v) s = .next t ∧ t = { s with key := t.key } ∧
      ∀ k : Fin 8, t.key[k.val] = if k.val = 4 + j.val then v else s.key[k.val]) ∧
    ∃ t, exec (.wrDin j v) s = .next t ∧ t = { s with din := t.din } ∧
      ∀ k : Fin 4, t.din[k.val] = if k = j then v else s.din[k.val]

/-- R654, at the port and per instruction: each of bits 1..5 written as 1 is cleared, nothing else changes. -/
def Obligations.StatusWriteClearsWrittenOnes : Prop :=
  ∀ (s : State) v, s.resetAsserted = false →
    (∃ t, exec (.wrStatus v) s = .next t ∧ t = { s with status := t.status } ∧
      t.status.done = (if v.getLsbD 1 then false else s.status.done) ∧
      t.status.keyErr = (if v.getLsbD 2 then false else s.status.keyErr) ∧
      t.status.blkErr = (if v.getLsbD 3 then false else s.status.blkErr) ∧
      t.status.illegal = (if v.getLsbD 4 then false else s.status.illegal) ∧
      t.status.ovr = (if v.getLsbD 5 then false else s.status.ovr)) ∧
    ∀ rest, s.schedule = .access 0x8204 v :: rest →
      step s = exec (.wrStatus v) { s with schedule := rest }

/-- R202, R660, R661, R662: reserved offsets read 0; writes to them and to DOUT change nothing and are no error. -/
def Obligations.ReservedAndReadOnlyOffsets : Prop :=
  ∀ (s : State) off data rest,
    (ReservedOffset off → s.schedule = .access (descriptor false 2 off) data :: rest →
      step s = .next { s with schedule := rest, observed := .value 0x00000000 :: s.observed }) ∧
    (ReservedOffset off ∨ off ∈ [0x40#8, 0x44#8, 0x48#8, 0x4C#8] →
      s.schedule = .access (descriptor true 2 off) data :: rest →
      step s = .next { s with schedule := rest }) ∧
    (∀ j, exec (.wrDout j data) s = .next s) ∧ ∀ index, exec (.wrRsvd index data) s = .next s

/-- R203, R204: a narrow access at any offset, or a misaligned 32-bit access, ends with a bus error and changes no
state. That this also holds while reset is asserted is the model's own (log 13). -/
def Obligations.BusErrorsChangeNoState : Prop :=
  (∀ (s : State) write size off data rest,
    (size = 0 ∨ size = 1 ∨ (size = 2 ∧ off.extractLsb' 0 2 ≠ 0)) →
    s.schedule = .access (descriptor write size off) data :: rest →
    step s = .next { s with schedule := rest, observed := .busError :: s.observed }) ∧
  ∀ (s : State) wdata half off,
    exec (.busErrMisaligned wdata off) s = .next { s with observed := .busError :: s.observed } ∧
    exec (.busErrNarrow wdata half off) s = .next { s with observed := .busError :: s.observed }

/-- R811: "Every register write is visible to the next transaction": write a KEY or DIN register, then read it back. -/
def Obligations.OperandWriteIsVisibleToNextRead : Prop :=
  ∀ (s : State) off v data rest, s.resetAsserted = false →
    off.toNat % 4 = 0 → 0x10 ≤ off.toNat → off.toNat ≤ 0x3C →
    s.schedule = .access (descriptor true 2 off) v :: .access (descriptor false 2 off) data :: rest →
    ∃ t, run 2 s = .next t ∧ t.observed = .value v :: s.observed ∧
      ∀ o : BitVec 8, o.toNat % 4 = 0 → o ≠ off → windowValue t o = windowValue s o

/-- R11, R200: BASE is a multiple of 256, and an access to address BASE + OFF is the transaction with that offset. -/
def Obligations.WindowStandsAtBase : Prop :=
  Config.base % 256 = 0 ∧
  (∀ off write size data,
    accessAt (Config.base + off.toNat) write size data = some (.access (descriptor write size off) data)) ∧
  ∀ addr write size data, addr < Config.base ∨ Config.base + 256 ≤ addr → accessAt addr write size data = none

/-! ### The engine -/

/-- R705: completion in one step: all 16 result bytes, BUSY and DONE; OVR and the operands stay. It comes when the
schedule names it, and when the schedule is exhausted (R706, weak fairness; log 3). That the snapshot stays too is the
model's own (log 9; 93_implementation_defined.md I5 lets it hold any value while IDLE). -/
def Obligations.CompletionWritesTheResult : Prop :=
  ∀ (s : State) rest, s.eng.phase = .busy →
    (s.schedule = .completion :: rest ∨ (s.schedule = [] ∧ rest = [])) →
    ∃ t, step s = .next t ∧
      t = { s with
        dout := t.dout
        status := { s.status with done := true }
        eng := t.eng
        schedule := rest } ∧
      t.eng.phase = .idle ∧ t.eng.op = s.eng.op ∧ t.eng.nk = s.eng.nk ∧ t.eng.key = s.eng.key ∧
      t.eng.blk = s.eng.blk ∧
      (s.eng.op = .cipher → ∀ k, k < 16 → some (doutByte t k) = (cipher s.eng.nk s.eng.blk s.eng.key)[k]?) ∧
      (s.eng.op = .decipher → ∀ k, k < 16 → some (doutByte t k) = (invCipher s.eng.nk s.eng.blk s.eng.key)[k]?)

/-- R705: completion "is enabled only while `eng.phase = BUSY`"; an idle engine takes no step. -/
def Obligations.IdleEngineTakesNoStep : Prop :=
  ∀ (s : State) rest, s.eng.phase = .idle →
    (∀ e ∈ [Event.completion, .round, .clock], s.schedule = e :: rest → step s = .next { s with schedule := rest }) ∧
    (s.schedule = [] → step s = .next s)

/-- R110. -/
def Obligations.PhaseChangesAsStated : Prop :=
  State.reset.eng.phase = .idle ∧
  (∀ s : State, (statusWord s.eng.phase s.status).getLsbD 0 = true ↔ s.eng.phase = .busy) ∧
  (∀ s t : State, step s = .next t → s.eng.phase = .idle → t.eng.phase = .busy →
    ∃ v rest, s.schedule = .access 0x8200 v :: rest ∧ illegalCommand v = false ∧ v.extractLsb' 0 4 ≠ 0 ∧
      (v.extractLsb' 8 6).toNat ∈ [16, 24, 32] ∧ (v.extractLsb' 16 5).toNat = 16) ∧
  ∀ s t : State, step s = .next t → s.eng.phase = .busy → t.eng.phase = .idle →
    t.status.done = true ∨ (t.dout = State.reset.dout ∧ t.status = Status.reset ∧
      ∃ rest, s.schedule = .reset :: rest ∨ s.schedule = .resetInput true :: rest)

/-- R103, R104: "The engine never writes KEY", "The engine never writes DIN": only a WR.KEY or WR.DIN, or reset. -/
def Obligations.OperandsChangeOnlyByHostOrReset : Prop :=
  ∀ s t : State, step s = .next t → (t.key ≠ s.key ∨ t.din ≠ s.din) →
    (∃ rest, s.schedule = .reset :: rest ∨ s.schedule = .resetInput true :: rest) ∨
    ∃ td v rest, s.schedule = .access td v :: rest ∧
      ((t.din = s.din ∧ ∃ j : Fin 8, td = 0x8210 + 4 * BitVec.ofNat 16 j.val) ∨
       (t.key = s.key ∧ ∃ j : Fin 4, td = 0x8230 + 4 * BitVec.ofNat 16 j.val))

/-- R105, R806: "Only the completion step ... and reset write them", and completion sets DONE in the same step. -/
def Obligations.ResultChangesOnlyAtCompletionOrReset : Prop :=
  ∀ s t : State, step s = .next t → t.dout ≠ s.dout →
    (s.eng.phase = .busy ∧ t.eng.phase = .idle ∧ t.status.done = true) ∨
    (t.dout = State.reset.dout ∧ ∃ rest, s.schedule = .reset :: rest ∨ s.schedule = .resetInput true :: rest)

/-- R754, its last sentence: only a W1C write of bit 5 or reset clears OVR. -/
def Obligations.OverrunIsSticky : Prop :=
  ∀ s t : State, step s = .next t → s.status.ovr = true → t.status.ovr = false →
    (∃ v rest, s.schedule = .access 0x8204 v :: rest ∧ v.getLsbD 5 = true) ∨
    ∃ rest, s.schedule = .reset :: rest ∨ s.schedule = .resetInput true :: rest

/-- R111, R807: while a command stays in flight no step changes its snapshot, whatever the host writes. -/
def Obligations.SnapshotIsImmutableWhileBusy : Prop :=
  ∀ s t : State, step s = .next t → s.eng.phase = .busy → t.eng.phase = .busy →
    t.eng.op = s.eng.op ∧ t.eng.nk = s.eng.nk ∧ t.eng.key = s.eng.key ∧ t.eng.blk = s.eng.blk

/-- R706, R756: an accepted command completes, unless reset comes first: on every schedule of transactions the engine is
idle again after at most one step more than the schedule holds. -/
def Obligations.AcceptedCommandCompletes : Prop :=
  ∀ s : State, s.eng.phase = .busy → SchedulesTransactions s.schedule →
    ∃ n t, 0 < n ∧ n ≤ s.schedule.length + 1 ∧ run n s = .next t ∧ t.eng.phase = .idle

/-- R706, cycle-timed: with `remaining` cycles left, the command is still in flight, with its snapshot and the old
result, as long as fewer clock cycles have passed, and complete as soon as that many have, whatever transactions come
in between. -/
def Obligations.TimedCompletionTakesExactlyTheCyclesLeft : Prop :=
  ∀ (s : State) es rest, s.eng.phase = .busy → s.schedule = es ++ rest → SchedulesTransactions es →
    (∀ e ∈ es, (∃ td data, e = .access td data) ∨ e = .round ∨ e = .clock) →
    (es.count .clock < s.eng.remaining →
      ∃ t, run es.length s = .next t ∧ t.schedule = rest ∧ t.eng.phase = .busy ∧
        t.eng.remaining = s.eng.remaining - es.count .clock ∧ t.dout = s.dout ∧
        t.eng.op = s.eng.op ∧ t.eng.nk = s.eng.nk ∧ t.eng.key = s.eng.key ∧ t.eng.blk = s.eng.blk) ∧
    (0 < s.eng.remaining → es.count .clock + 1 = s.eng.remaining → ∀ rest', rest = .clock :: rest' →
      ∃ t, run (es.length + 1) s = .next t ∧ t.eng.phase = .idle ∧ t.status.done = true ∧
        t.dout = packedBlock (runPipeline s.eng.op s.eng.nk s.eng.blk s.eng.key))

/-- R706, R813: the cycle-timed model's "results must be among the untimed model's": for every schedule there is one
without clock events, with the same transactions in the same order, that ends with the same observations and the same
state but for the cycles left. -/
def Obligations.TimedRunsAreUntimedRuns : Prop :=
  ∀ (s t : State), run s.schedule.length s = .next t →
    ∃ es u, Event.clock ∉ es ∧
      es.filter (fun e => e matches .access _ _) = s.schedule.filter (fun e => e matches .access _ _) ∧
      run es.length { s with schedule := es } = .next u ∧
      u = { t with eng := { t.eng with remaining := u.eng.remaining } }

/-- R115, R116, R602, R603: advanced round by round, the working state ends at exactly what completion writes.
That rounds are events of their own, between acceptance and completion, is the model's own (log 7). -/
def Obligations.RoundByRoundReachesTheResult : Prop :=
  ∀ s : State, WorkingFollowsSnapshot s → s.eng.phase = .busy → s.eng.round = lastRound s.eng.op s.eng.nk →
    storeState s.eng.s = runPipeline s.eng.op s.eng.nk s.eng.blk s.eng.key

/-- R116, R18, R111: neither the working state nor, while IDLE, the snapshot can be told by any host: states that differ
in nothing else go on looking alike, with the same observations, step by step. -/
def Obligations.InternalStateIsNotObservable : Prop :=
  ∀ s t : State, LookAlike s t → OutcomesAlike (step s) (step t)

/-! ### Invariants and reset -/

/-- The invariant of Safety.lean (R111, R653, R800, R706, R113-R115) holds at reset. -/
def Obligations.InvariantHoldsAtReset : Prop := State.reset.Inv

/-- The invariant of Safety.lean (R111, R653, R800, R706, R113-R115) is kept by every step, of whatever agent. -/
def Obligations.StepKeepsInvariant : Prop :=
  ∀ s t : State, s.Inv → step s = .next t → t.Inv

/-- R125, R800, R804: the state after reset, but for the values R125 leaves unspecified. -/
def Obligations.ResetValues : Prop :=
  statusWord State.reset.eng.phase State.reset.status = 0x00000000 ∧
  (∀ j : Fin 8, State.reset.key[j.val] = 0x00000000) ∧
  (∀ j : Fin 4, State.reset.din[j.val] = 0x00000000 ∧ State.reset.dout[j.val] = 0x00000000) ∧
  State.reset.eng.phase = .idle ∧ State.reset.eng.remaining = 0

/-- R802: a reset while BUSY abandons the command: no completion follows, DOUT is 0 and DONE is 0, and nothing the host
can read tells that a command was in flight. -/
def Obligations.ResetAbandonsTheCommand : Prop :=
  ∀ (s : State) rest, s.eng.phase = .busy →
    (s.schedule = .reset :: rest ∨ s.schedule = .resetInput true :: rest) →
    ∃ t, step s = .next t ∧ t.eng.phase = .idle ∧ completionStep t = t ∧
      (∀ j : Fin 4, t.dout[j.val] = 0x00000000) ∧ t.status.done = false ∧
      ∀ s' : State, s'.eng.phase = .idle → s'.schedule = s.schedule → s'.observed = s.observed →
        s'.resetAsserted = s.resetAsserted → ∃ t', step s' = .next t' ∧ LookAlike t t'

/-- R800: "While reset is asserted, ... a host write has no effect", whichever write. -/
def Obligations.WritesHaveNoEffectInReset : Prop :=
  ∀ (s : State) v j index kl bl x, s.resetAsserted = true →
    ∀ i ∈ [Instr.wrCtrl v, .wrStatus v, .wrKeyLow j v, .wrKeyHigh j v, .wrDin j v, .wrDout j v, .wrRsvd index v, .nop x,
        .cipher kl bl, .decipher kl bl, .illegal v],
      exec i s = .next s

/-! ### The algorithm -/

/-- R404. -/
def Obligations.FieldLaws : Prop :=
  (∀ a b, gmul a b = gmul b a) ∧
  (∀ a b c, gmul a (gmul b c) = gmul (gmul a b) c) ∧
  (∀ a b c, gmul a (b ^^^ c) = gmul a b ^^^ gmul a c) ∧
  (∀ a, gmul 1 a = a ∧ gmul 0 a = 0) ∧
  (∀ a, a ≠ 0 → ∃! b, gmul a b = 1) ∧
  (∀ a b, xtime (a ^^^ b) = xtime a ^^^ xtime b) ∧
  gmul 0x53 0xCA = 1

/-- R454: "The two tables are mutual inverses", so SBOX is a permutation. -/
def Obligations.SboxTablesAreMutualInverses : Prop :=
  (∀ x, invSub (sub x) = x ∧ sub (invSub x) = x) ∧ Function.Bijective sub

/-- R452: every entry of SBOX is the affine map of the field inverse, and of 0 for 0. -/
def Obligations.SboxFollowsGenerationRule : Prop :=
  sub 0 = affine 0 ∧ ∀ a b, gmul a b = 1 → sub a = affine b

/-- R501, R500. -/
def Obligations.ExpandedKeyWordCount : Prop :=
  ∀ nk key, (expand nk key).length = 4 * (nk.rounds + 1)

/-- R504, R505: the expanded key is the key's words and then the recurrence, index by index. -/
def Obligations.ExpandFollowsRecurrence : Prop :=
  ∀ nk key,
    (∀ i, i < nk.words → key.length = 4 * nk.words →
      (roundKeyWord (expand nk key) i).bytes = (key.drop (4 * i)).take 4) ∧
    ∀ i, nk.words ≤ i → i < 4 * (nk.rounds + 1) →
      roundKeyWord (expand nk key) i =
        (roundKeyWord (expand nk key) (i - nk.words)).xor
          (let temp := roundKeyWord (expand nk key) (i - 1)
           if i % nk.words = 0 then
             { subWord (rotWord temp) with b0 := (subWord (rotWord temp)).b0 ^^^ rcon (i / nk.words) }
           else if nk = .aes256 ∧ i % 8 = 4 then subWord temp
           else temp)

/-- R557: "Each primitive and its inverse compose to the identity", in both orders. -/
def Obligations.InversePrimitivesCompose : Prop :=
  ∀ s : Matrix,
    invSubBytes (subBytes s) = s ∧ subBytes (invSubBytes s) = s ∧
    invShiftRows (shiftRows s) = s ∧ shiftRows (invShiftRows s) = s ∧
    invMixColumns (mixColumns s) = s ∧ mixColumns (invMixColumns s) = s

/-- R558, R556: byte substitution commutes with row shifting in both directions, and AddRoundKey is self-inverse. -/
def Obligations.SubstitutionCommutesWithShifting : Prop :=
  ∀ s : Matrix,
    subBytes (shiftRows s) = shiftRows (subBytes s) ∧ invSubBytes (invShiftRows s) = invShiftRows (invSubBytes s) ∧
    ∀ w r, addRoundKey (addRoundKey s w r) w r = s

/-- R604: the round-trip law, for every key size, key and block, in both orders. -/
def Obligations.CipherRoundTrip : Prop :=
  ∀ nk key block, key.length = 4 * nk.words → block.length = 16 →
    invCipher nk (cipher nk block key) key = block ∧ cipher nk (invCipher nk block key) key = block

/-- R805, R310, R707, R708: the host sequence of R805 for one operation, for every key size, key and block, from every
idle and released state: the KEY and DIN writes in any order (steps 1, 2), the STATUS read that sees BUSY = 0 (3), the
command (4), m STATUS reads that see BUSY = 1, the completion, the one that sees BUSY = 0 and DONE = 1 (5, 6), and the
DOUT reads (7). The four words read are the operation's result. -/
def Obligations.HostSequenceReturnsTheResult : Prop :=
  ∀ (s : State) op nk key block loads m rest, s.resetAsserted = false → s.eng.phase = .idle →
    key.length = 4 * nk.words → block.length = 16 → loads.Perm (loadKey key ++ loadBlock block) →
    s.schedule = loads ++ [readRegister .status, if op = .cipher then cipherCommand nk else decipherCommand nk] ++
      wait m ++ [.completion] ++ wait 1 ++ readBlock ++ rest →
    ∃ t, run (nk.words + m + 12) s = .next t ∧ t.schedule = rest ∧ t.eng.phase = .idle ∧ t.status.done = true ∧
      let result := packedBlock (runPipeline op nk block key)
      let overrun : Word := if s.status.ovr then 0x00000020 else 0x00000000
      t.observed =
        [.value result[3], .value result[2], .value result[1], .value result[0], .value (overrun ||| 0x00000002)] ++
          List.replicate m (.value (overrun ||| 0x00000001)) ++ [.value (statusWord .idle s.status)] ++ s.observed

/-! ### Reset as a step -/

/-- R800, R125: from every state, the atomic reset step and the assertion of the reset input put every register at its
reset value, and the release of the input changes only its level. That the schedule, the observations and, for the
atomic step, the level stay is the model's own (log 12). -/
def Obligations.ResetStepSetsEveryRegister : Prop :=
  ∀ (s : State) rest,
    (∀ e ∈ [Event.reset, .resetInput true], s.schedule = e :: rest →
      ∃ t, step s = .next t ∧
        (∀ j : Fin 8, t.key[j.val] = 0x00000000) ∧
        (∀ j : Fin 4, t.din[j.val] = 0x00000000 ∧ t.dout[j.val] = 0x00000000) ∧
        statusWord t.eng.phase t.status = 0x00000000 ∧ t.eng.phase = .idle ∧ t.eng.remaining = 0 ∧
        t.schedule = rest ∧ t.observed = s.observed ∧
        t.resetAsserted = if e = .reset then s.resetAsserted else true) ∧
    (s.schedule = .resetInput false :: rest →
      step s = .next { s with schedule := rest, resetAsserted := false })

/-- R800: "While reset is asserted, a host read returns that reset value": 0 at every offset. The premise HeldInReset is a
part of the invariant that every step keeps (StepKeepsInvariant). -/
def Obligations.ReadsInResetReturnResetValues : Prop :=
  ∀ (s : State) off data rest, HeldInReset s → s.resetAsserted = true → off.toNat % 4 = 0 →
    s.schedule = .access (descriptor false 2 off) data :: rest →
    step s = .next { s with schedule := rest, observed := .value 0x00000000 :: s.observed }
end

