-- ==== Sys2Proof/Laws/Algorithm.lean ====
section
/-! SUPPORT. The State and its words as indexed arrays of bytes: reading after building, and equality by bytes. -/

namespace Sys2Proof

@[simp] theorem Quad.get_ofFn (f : Fin 4 → Byte) (n : Fin 4) : (Quad.ofFn f).get n = f n := by
  fin_cases n <;> rfl

@[simp] theorem Quad.get_xor (u v : Quad) (n : Fin 4) : (u.xor v).get n = u.get n ^^^ v.get n := by
  fin_cases n <;> rfl

theorem Quad.ext_get {u v : Quad} (h : ∀ n, u.get n = v.get n) : u = v := by
  obtain ⟨a, b, c, d⟩ := u
  obtain ⟨a', b', c', d'⟩ := v
  have h0 := h 0; have h1 := h 1; have h2 := h 2; have h3 := h 3
  simp only [Quad.get] at h0 h1 h2 h3
  subst h0 h1 h2 h3
  rfl

@[simp] theorem Matrix.col_ofFn (f : Fin 4 → Fin 4 → Byte) (c : Fin 4) :
    (Matrix.ofFn f).col c = Quad.ofFn (f · c) := by
  fin_cases c <;> rfl

@[simp] theorem Matrix.get_ofFn (f : Fin 4 → Fin 4 → Byte) (r c : Fin 4) : (Matrix.ofFn f).get r c = f r c := by
  simp [Matrix.get]

theorem Matrix.ext_get {s t : Matrix} (h : ∀ r c, s.get r c = t.get r c) : s = t := by
  have hc : ∀ c, s.col c = t.col c := fun c => Quad.ext_get fun r => h r c
  obtain ⟨a, b, c, d⟩ := s
  obtain ⟨a', b', c', d'⟩ := t
  have h0 := hc 0; have h1 := hc 1; have h2 := hc 2; have h3 := hc 3
  simp only [Matrix.col] at h0 h1 h2 h3
  subst h0 h1 h2 h3
  rfl

/-- Each primitive byte by byte (R550-R556). -/
@[simp] theorem subBytes_get (s : Matrix) (r c : Fin 4) : (subBytes s).get r c = sub (s.get r c) := by simp [subBytes]
@[simp] theorem invSubBytes_get (s : Matrix) (r c : Fin 4) : (invSubBytes s).get r c = invSub (s.get r c) := by
  simp [invSubBytes]
@[simp] theorem shiftRows_get (s : Matrix) (r c : Fin 4) : (shiftRows s).get r c = s.get r (c + r) := by
  simp [shiftRows]
@[simp] theorem invShiftRows_get (s : Matrix) (r c : Fin 4) : (invShiftRows s).get r c = s.get r (c - r) := by
  simp [invShiftRows]
@[simp] theorem mixColumns_get (s : Matrix) (r c : Fin 4) :
    (mixColumns s).get r c = rowTimesColumn (mix r) (s.col c) := by simp [mixColumns]
@[simp] theorem invMixColumns_get (s : Matrix) (r c : Fin 4) :
    (invMixColumns s).get r c = rowTimesColumn (invMix r) (s.col c) := by simp [invMixColumns]
@[simp] theorem addRoundKey_get (s : Matrix) (w : List Quad) (k : Nat) (r c : Fin 4) :
    (addRoundKey s w k).get r c = s.get r c ^^^ (roundKeyWord w (4 * k + c.val)).get r := by simp [addRoundKey]

end Sys2Proof
end

