-- ==== Sys2Proof/Laws/Decode.lean ====
section
/-! SUPPORT. The opcode-table rows as conditions on fields, and what the decoder can answer. -/

namespace Sys2Proof

theorem forall_le_one {p : Nat → Prop} : (∀ m, m ≤ 1 → p m) ↔ p 0 ∧ p 1 :=
  ⟨fun h => ⟨h 0 (by omega), h 1 (by omega)⟩, fun ⟨h0, h1⟩ m hm => by
    rcases Nat.le_one_iff_eq_zero_or_eq_one.mp hm with rfl | rfl <;> assumption⟩

theorem bits_ext_iff {n : Nat} (x y : BitVec n) : x = y ↔ ∀ i, i < n → x.getLsbD i = y.getLsbD i :=
  ⟨fun h i _ => by rw [h], fun h => BitVec.eq_of_getLsbD_eq (fun i hi => h i hi)⟩

/-- The NOP row is OP = 0 (R305). -/
theorem rowNop_hits (cw : Word) : rowNop.hits cw = true ↔ cw.extractLsb' 0 4 = 0 := by
  simp only [OpcodeRow.hits, rowNop, beq_iff_eq, bits_ext_iff, BitVec.getLsbD_and, BitVec.getLsbD_extractLsb']
  simp [Nat.forall_lt_succ_right, forall_le_one]

/-- The CIPHER row is OP = 1 with the reserved fields zero (R306). -/
theorem rowCipher_hits (cw : Word) :
    rowCipher.hits cw = true ↔ cw.extractLsb' 0 4 = 1 ∧ reservedCommandBits cw = false := by
  simp only [OpcodeRow.hits, rowCipher, reservedCommandBits, Bool.or_eq_false_iff, bne_eq_false_iff_eq, beq_iff_eq,
    bits_ext_iff, BitVec.getLsbD_and, BitVec.getLsbD_extractLsb']
  simp [Nat.forall_lt_succ_right, forall_le_one]
  tauto

/-- The DECIPHER row is OP = 2 with the reserved fields zero (R306). -/
theorem rowDecipher_hits (cw : Word) :
    rowDecipher.hits cw = true ↔ cw.extractLsb' 0 4 = 2 ∧ reservedCommandBits cw = false := by
  simp only [OpcodeRow.hits, rowDecipher, reservedCommandBits, Bool.or_eq_false_iff, bne_eq_false_iff_eq, beq_iff_eq,
    bits_ext_iff, BitVec.getLsbD_and, BitVec.getLsbD_extractLsb']
  simp [Nat.forall_lt_succ_right, forall_le_one]
  tauto

/-- The ILLEGAL row takes every word. -/
theorem rowIllegal_hits (cw : Word) : rowIllegal.hits cw = true := by simp [OpcodeRow.hits, rowIllegal]

/-- Which command words are illegal, by the rows (R306). -/
theorem illegalCommand_iff (cw : Word) :
    illegalCommand cw = true ↔
      rowNop.hits cw = false ∧ rowCipher.hits cw = false ∧ rowDecipher.hits cw = false := by
  simp only [← Bool.not_eq_true, rowNop_hits, rowCipher_hits, rowDecipher_hits]
  unfold illegalCommand
  by_cases h0 : cw.extractLsb' 0 4 = 0
  · simp [h0]
  · by_cases h1 : cw.extractLsb' 0 4 = 1
    · simp [h1]
    · by_cases h2 : cw.extractLsb' 0 4 = 2
      · simp [h2]
      · simp only [BitVec.ofNat_eq_ofNat] at h0 h1 h2 ⊢
        simp [h0, h1, h2]

/-- What a command word decodes to (R305, R306). -/
theorem decodeCommand_cases (cw : Word) :
    (cw.extractLsb' 0 4 = 0 ∧ decodeCommand cw = .nop (cw.extractLsb' 4 28)) ∨
    (cw.extractLsb' 0 4 = 1 ∧ reservedCommandBits cw = false ∧
      decodeCommand cw = .cipher (cw.extractLsb' 8 6) (cw.extractLsb' 16 5)) ∨
    (cw.extractLsb' 0 4 = 2 ∧ reservedCommandBits cw = false ∧
      decodeCommand cw = .decipher (cw.extractLsb' 8 6) (cw.extractLsb' 16 5)) ∨
    (illegalCommand cw = true ∧ decodeCommand cw = .illegal cw) := by
  unfold decodeCommand
  split
  · next h => exact .inl ⟨(rowNop_hits cw).mp h, rfl⟩
  · next h0 =>
    split
    · next h => exact .inr (.inl ⟨((rowCipher_hits cw).mp h).1, ((rowCipher_hits cw).mp h).2, rfl⟩)
    · next h1 =>
      split
      · next h => exact .inr (.inr (.inl ⟨((rowDecipher_hits cw).mp h).1, ((rowDecipher_hits cw).mp h).2, rfl⟩))
      · next h2 =>
        refine .inr (.inr (.inr ⟨(illegalCommand_iff cw).mpr ⟨?_, ?_, ?_⟩, rfl⟩)) <;> simp_all

/-- A descriptor is refused for its reserved bits, or for SIZE = 3, or decodes to its row's instruction (R302). -/
theorem decodeTransaction_cases (td : BitVec 16) (data : Word) :
    (td.extractLsb' 10 5 ≠ 0 ∧ decodeTransaction td data = .error .reservedBitsSet) ∨
    (td.extractLsb' 10 5 = 0 ∧ td.extractLsb' 8 2 = 3 ∧ decodeTransaction td data = .error .sizeNotATransaction) ∨
    (td.extractLsb' 10 5 = 0 ∧ td.extractLsb' 8 2 ≠ 3 ∧ decodeTransaction td data = .ok (decodeRow td data)) := by
  unfold decodeTransaction
  split
  · next h => exact .inl ⟨h, rfl⟩
  · next h =>
    split
    · next h3 => exact .inr (.inl ⟨not_not.mp h, h3, rfl⟩)
    · next h3 => exact .inr (.inr ⟨not_not.mp h, h3, rfl⟩)

end Sys2Proof
end

