-- ==== Sys2Proof/Laws/State.lean ====
section
/-! SUPPORT. One lemma per field of State for each named update, so that later proofs unfold none of them. -/

namespace Sys2Proof.Machine

@[simp] theorem respond_key (o : Observation) (s : State) : (respond o s).key = s.key := rfl
@[simp] theorem respond_din (o : Observation) (s : State) : (respond o s).din = s.din := rfl
@[simp] theorem respond_dout (o : Observation) (s : State) : (respond o s).dout = s.dout := rfl
@[simp] theorem respond_status (o : Observation) (s : State) : (respond o s).status = s.status := rfl
@[simp] theorem respond_eng (o : Observation) (s : State) : (respond o s).eng = s.eng := rfl
@[simp] theorem respond_resetAsserted (o : Observation) (s : State) : (respond o s).resetAsserted = s.resetAsserted := rfl
@[simp] theorem respond_schedule (o : Observation) (s : State) : (respond o s).schedule = s.schedule := rfl
@[simp] theorem respond_observed (o : Observation) (s : State) : (respond o s).observed = o :: s.observed := rfl

@[simp] theorem writeKey_key (j : Nat) (v : Word) (s : State) : (writeKey j v s).key = s.key.setIfInBounds j v := rfl
@[simp] theorem writeKey_din (j : Nat) (v : Word) (s : State) : (writeKey j v s).din = s.din := rfl
@[simp] theorem writeKey_dout (j : Nat) (v : Word) (s : State) : (writeKey j v s).dout = s.dout := rfl
@[simp] theorem writeKey_status (j : Nat) (v : Word) (s : State) : (writeKey j v s).status = s.status := rfl
@[simp] theorem writeKey_eng (j : Nat) (v : Word) (s : State) : (writeKey j v s).eng = s.eng := rfl
@[simp] theorem writeKey_resetAsserted (j : Nat) (v : Word) (s : State) : (writeKey j v s).resetAsserted = s.resetAsserted := rfl
@[simp] theorem writeKey_schedule (j : Nat) (v : Word) (s : State) : (writeKey j v s).schedule = s.schedule := rfl
@[simp] theorem writeKey_observed (j : Nat) (v : Word) (s : State) : (writeKey j v s).observed = s.observed := rfl

@[simp] theorem writeDin_key (j : Nat) (v : Word) (s : State) : (writeDin j v s).key = s.key := rfl
@[simp] theorem writeDin_din (j : Nat) (v : Word) (s : State) : (writeDin j v s).din = s.din.setIfInBounds j v := rfl
@[simp] theorem writeDin_dout (j : Nat) (v : Word) (s : State) : (writeDin j v s).dout = s.dout := rfl
@[simp] theorem writeDin_status (j : Nat) (v : Word) (s : State) : (writeDin j v s).status = s.status := rfl
@[simp] theorem writeDin_eng (j : Nat) (v : Word) (s : State) : (writeDin j v s).eng = s.eng := rfl
@[simp] theorem writeDin_resetAsserted (j : Nat) (v : Word) (s : State) : (writeDin j v s).resetAsserted = s.resetAsserted := rfl
@[simp] theorem writeDin_schedule (j : Nat) (v : Word) (s : State) : (writeDin j v s).schedule = s.schedule := rfl
@[simp] theorem writeDin_observed (j : Nat) (v : Word) (s : State) : (writeDin j v s).observed = s.observed := rfl

@[simp] theorem updateStatus_key (f : Status → Status) (s : State) : (updateStatus f s).key = s.key := rfl
@[simp] theorem updateStatus_din (f : Status → Status) (s : State) : (updateStatus f s).din = s.din := rfl
@[simp] theorem updateStatus_dout (f : Status → Status) (s : State) : (updateStatus f s).dout = s.dout := rfl
@[simp] theorem updateStatus_status (f : Status → Status) (s : State) : (updateStatus f s).status = f s.status := rfl
@[simp] theorem updateStatus_eng (f : Status → Status) (s : State) : (updateStatus f s).eng = s.eng := rfl
@[simp] theorem updateStatus_resetAsserted (f : Status → Status) (s : State) : (updateStatus f s).resetAsserted = s.resetAsserted := rfl
@[simp] theorem updateStatus_schedule (f : Status → Status) (s : State) : (updateStatus f s).schedule = s.schedule := rfl
@[simp] theorem updateStatus_observed (f : Status → Status) (s : State) : (updateStatus f s).observed = s.observed := rfl

@[simp] theorem dequeued_key (rest : List Event) (s : State) : (dequeued rest s).key = s.key := rfl
@[simp] theorem dequeued_din (rest : List Event) (s : State) : (dequeued rest s).din = s.din := rfl
@[simp] theorem dequeued_dout (rest : List Event) (s : State) : (dequeued rest s).dout = s.dout := rfl
@[simp] theorem dequeued_status (rest : List Event) (s : State) : (dequeued rest s).status = s.status := rfl
@[simp] theorem dequeued_eng (rest : List Event) (s : State) : (dequeued rest s).eng = s.eng := rfl
@[simp] theorem dequeued_resetAsserted (rest : List Event) (s : State) : (dequeued rest s).resetAsserted = s.resetAsserted := rfl
@[simp] theorem dequeued_schedule (rest : List Event) (s : State) : (dequeued rest s).schedule = rest := rfl
@[simp] theorem dequeued_observed (rest : List Event) (s : State) : (dequeued rest s).observed = s.observed := rfl

@[simp] theorem complete_key (s : State) : (complete s).key = s.key := rfl
@[simp] theorem complete_din (s : State) : (complete s).din = s.din := rfl
@[simp] theorem complete_dout (s : State) : (complete s).dout = packedBlock (runPipeline s.eng.op s.eng.nk s.eng.blk s.eng.key) := rfl
@[simp] theorem complete_status (s : State) : (complete s).status = ⟨true, s.status.keyErr, s.status.blkErr, s.status.illegal, s.status.ovr⟩ := rfl
@[simp] theorem complete_eng (s : State) : (complete s).eng = ⟨.idle, s.eng.op, s.eng.nk, s.eng.key, s.eng.blk, 0, zeroMatrix, [], 0⟩ := rfl
@[simp] theorem complete_resetAsserted (s : State) : (complete s).resetAsserted = s.resetAsserted := rfl
@[simp] theorem complete_schedule (s : State) : (complete s).schedule = s.schedule := rfl
@[simp] theorem complete_observed (s : State) : (complete s).observed = s.observed := rfl

@[simp] theorem accept_key (op : Operation) (nk : KeySize) (s : State) : (accept op nk s).key = s.key := rfl
@[simp] theorem accept_din (op : Operation) (nk : KeySize) (s : State) : (accept op nk s).din = s.din := rfl
@[simp] theorem accept_dout (op : Operation) (nk : KeySize) (s : State) : (accept op nk s).dout = s.dout := rfl
@[simp] theorem accept_status (op : Operation) (nk : KeySize) (s : State) : (accept op nk s).status = s.status := rfl
@[simp] theorem accept_resetAsserted (op : Operation) (nk : KeySize) (s : State) : (accept op nk s).resetAsserted = s.resetAsserted := rfl
@[simp] theorem accept_schedule (op : Operation) (nk : KeySize) (s : State) : (accept op nk s).schedule = s.schedule := rfl
@[simp] theorem accept_observed (op : Operation) (nk : KeySize) (s : State) : (accept op nk s).observed = s.observed := rfl

@[simp] theorem resetStep_key (s : State) : (resetStep s).key = Vector.replicate 8 0 := rfl
@[simp] theorem resetStep_din (s : State) : (resetStep s).din = Vector.replicate 4 0 := rfl
@[simp] theorem resetStep_dout (s : State) : (resetStep s).dout = Vector.replicate 4 0 := rfl
@[simp] theorem resetStep_status (s : State) : (resetStep s).status = Status.reset := rfl
@[simp] theorem resetStep_eng (s : State) : (resetStep s).eng = Engine.reset := rfl
@[simp] theorem resetStep_resetAsserted (s : State) : (resetStep s).resetAsserted = s.resetAsserted := rfl
@[simp] theorem resetStep_schedule (s : State) : (resetStep s).schedule = s.schedule := rfl
@[simp] theorem resetStep_observed (s : State) : (resetStep s).observed = s.observed := rfl

@[simp] theorem accept_eng_phase (op : Operation) (nk : KeySize) (s : State) : (accept op nk s).eng.phase = .busy := rfl
@[simp] theorem accept_eng_op (op : Operation) (nk : KeySize) (s : State) : (accept op nk s).eng.op = op := rfl
@[simp] theorem accept_eng_nk (op : Operation) (nk : KeySize) (s : State) : (accept op nk s).eng.nk = nk := rfl
@[simp] theorem accept_eng_key (op : Operation) (nk : KeySize) (s : State) : (accept op nk s).eng.key = keyOperand s nk := rfl
@[simp] theorem accept_eng_blk (op : Operation) (nk : KeySize) (s : State) : (accept op nk s).eng.blk = blockOperand s := rfl
@[simp] theorem accept_eng_remaining (op : Operation) (nk : KeySize) (s : State) : (accept op nk s).eng.remaining = Config.lat op nk := rfl
@[simp] theorem accept_eng_s (op : Operation) (nk : KeySize) (s : State) : (accept op nk s).eng.s = pipelineStart op nk (expand nk (keyOperand s nk)) (blockOperand s) := rfl
@[simp] theorem accept_eng_w (op : Operation) (nk : KeySize) (s : State) : (accept op nk s).eng.w = expand nk (keyOperand s nk) := rfl
@[simp] theorem accept_eng_round (op : Operation) (nk : KeySize) (s : State) : (accept op nk s).eng.round = firstRound op nk := rfl

@[simp] theorem clearOutcome_done (st : Status) : st.clearOutcome.done = false := rfl
@[simp] theorem clearOutcome_keyErr (st : Status) : st.clearOutcome.keyErr = false := rfl
@[simp] theorem clearOutcome_blkErr (st : Status) : st.clearOutcome.blkErr = false := rfl
@[simp] theorem clearOutcome_illegal (st : Status) : st.clearOutcome.illegal = false := rfl
@[simp] theorem clearOutcome_ovr (st : Status) : st.clearOutcome.ovr = st.ovr := rfl

end Sys2Proof.Machine
end

