-- ==== Sys2Proof/Laws/Ops.lean ====
section
/-! SUPPORT. What each shared operation can do, said once: provers cite these and do not unfold the operations. -/

namespace Sys2Proof.Machine

/-- A host write has its effect, or none while reset is asserted (R800). -/
theorem hostWrite_released {f : State → State} {s : State} (h : s.resetAsserted = false) : hostWrite f s = f s := by
  simp [hostWrite, h]

theorem hostWrite_asserted {f : State → State} {s : State} (h : s.resetAsserted = true) : hostWrite f s = s := by
  simp [hostWrite, h]

theorem hostWrite_cases (f : State → State) (s : State) :
    (s.resetAsserted = true ∧ hostWrite f s = s) ∨ (s.resetAsserted = false ∧ hostWrite f s = f s) := by
  cases h : s.resetAsserted <;> simp [hostWrite, h]

/-- The recorded conditions set their STATUS bit; E_BUS is the response (R750). -/
theorem raise_recorded {e : ErrorCondition} (h : e ≠ .bus) (s : State) : raise e s = updateStatus (·.record e) s := by
  cases e <;> first | rfl | exact absurd rfl h

theorem raise_bus (s : State) : raise .bus s = respond .busError s := rfl

/-- The declared lengths that select a key size (R304, R500). -/
theorem keySizeOf_eq_some {kl : BitVec 6} {nk : KeySize} (h : keySizeOf kl = some nk) :
    kl = BitVec.ofNat 6 nk.bytes := by
  unfold keySizeOf at h
  split at h
  · cases h; assumption
  · split at h
    · cases h; assumption
    · split at h
      · cases h; assumption
      · cases h

theorem keySizeOf_bytes (nk : KeySize) : keySizeOf (BitVec.ofNat 6 nk.bytes) = some nk := by
  cases nk <;> decide

/-- R700 steps 5 and 6 from a state whose KEYERR and BLKERR are clear: acceptance when both lengths are legal, and
otherwise each failed check recorded, nothing else changed. -/
theorem checkAndAccept_cases (op : Operation) (kl : BitVec 6) (bl : BitVec 5) (s : State)
    (hk : s.status.keyErr = false) (hb : s.status.blkErr = false) :
    (∃ nk, keySizeOf kl = some nk ∧ blockLengthOk bl = true ∧ checkAndAccept op kl bl s = accept op nk s) ∨
    ((keySizeOf kl = none ∨ blockLengthOk bl = false) ∧
      checkAndAccept op kl bl s =
        updateStatus (fun st => ⟨st.done, (keySizeOf kl).isNone, !blockLengthOk bl, st.illegal, st.ovr⟩) s) := by
  obtain ⟨key, din, dout, ⟨dn, ke, be, il, ov⟩, eng, ra, sch, obs⟩ := s
  simp only at hk hb
  subst hk hb
  cases hs : keySizeOf kl <;> cases hbl : blockLengthOk bl <;>
    simp [checkAndAccept, hs, hbl, raise, updateStatus, Status.record]

/-- What the engine's step does (R705, R706). -/
theorem completionStep_cases (s : State) :
    (s.eng.phase = .busy ∧ completionStep s = complete s) ∨ (s.eng.phase = .idle ∧ completionStep s = s) := by
  cases h : s.eng.phase <;> simp [completionStep, h]

/-- What a clock cycle does (R706): nothing while idle, the completion in a command's last cycle, one cycle less before
it. -/
theorem clockStep_cases (s : State) :
    (s.eng.phase = .idle ∧ clockStep s = s) ∨
    (s.eng.phase = .busy ∧ s.eng.remaining ≤ 1 ∧ clockStep s = complete s) ∨
    (s.eng.phase = .busy ∧ 1 < s.eng.remaining ∧
      clockStep s = { s with eng := { s.eng with remaining := s.eng.remaining - 1 } }) := by
  cases h : s.eng.phase
  · simp [clockStep, h]
  · by_cases hr : s.eng.remaining ≤ 1
    · simp [clockStep, h, hr]
    · simp [clockStep, h, hr]; omega

/-- What a round does: the working state only (R116). -/
theorem roundStep_cases (s : State) :
    (s.eng.phase = .idle ∧ roundStep s = s) ∨
    (s.eng.phase = .busy ∧ roundStep s =
      { s with eng := { s.eng with
          s := (pipelineRound s.eng.op s.eng.nk s.eng.w s.eng.s s.eng.round).1
          round := (pipelineRound s.eng.op s.eng.nk s.eng.w s.eng.s s.eng.round).2 } }) := by
  cases h : s.eng.phase <;> simp [roundStep, h]

end Sys2Proof.Machine
end

