-- ==== Sys2Proof/Laws/PerInstr.lean ====
section
/-! SUPPORT. The family RowOf: the words of a well-formed instruction lie in the instruction's own row of
spec/opcode_table.json, and in no earlier row of its format, so "the first matching row in table order" (R311) is it. -/

namespace Sys2Proof.Laws.RowOf

-- The kernel evaluations below run one after another, which keeps the memory of one compile small.
set_option Elab.async false

/-- The first row the instruction's words lie in is the instruction's own. -/
def Statement (i : Instr) : Prop := i.wellFormed = true → firstRow (encode i) = rowOf i

theorem nop (ignored : BitVec 28) : Statement (.nop ignored) := by
  intro _
  have h : rowNop.hits (ignored ++ 0#4) = true := by
    rw [rowNop_hits, bits_ext_iff]
    intro i hi
    have e := BitVec.getLsbD_append (x := ignored) (y := 0#4) (i := i)
    simp only [BitVec.getLsbD_extractLsb', Nat.zero_add, hi, decide_true, Bool.true_and]
    exact e.trans (by simp [hi])
  simp only [firstRow, encode, commandRows, List.find?, h]
  rfl

theorem cipher (keyLen : BitVec 6) (blkLen : BitVec 5) : Statement (.cipher keyLen blkLen) := by
  have : ∀ k b, firstRow (encode (.cipher k b)) = rowOf (.cipher k b) := by decide +kernel
  exact fun _ => this keyLen blkLen

theorem decipher (keyLen : BitVec 6) (blkLen : BitVec 5) : Statement (.decipher keyLen blkLen) := by
  have : ∀ k b, firstRow (encode (.decipher k b)) = rowOf (.decipher k b) := by decide +kernel
  exact fun _ => this keyLen blkLen

theorem illegal (cw : Word) : Statement (.illegal cw) := by
  intro h
  obtain ⟨h0, h1, h2⟩ := (illegalCommand_iff cw).mp h
  simp only [firstRow, encode, commandRows, List.find?, h0, h1, h2, rowIllegal_hits]
  rfl

/-- The first row of a transaction does not depend on its data. -/
theorem firstRow_data (td : BitVec 16) (data : Word) : firstRow (.transaction td data) = firstRow (.transaction td 0) :=
  rfl

theorem rdCtrl : Statement .rdCtrl := fun _ => by decide +kernel

theorem wrCtrl (data : Word) : Statement (.wrCtrl data) := fun _ =>
  (firstRow_data _ data).trans (by decide +kernel : firstRow (encode (.wrCtrl 0)) = rowOf (.wrCtrl 0))

theorem rdStatus : Statement .rdStatus := fun _ => by decide +kernel

theorem wrStatus (data : Word) : Statement (.wrStatus data) := fun _ =>
  (firstRow_data _ data).trans (by decide +kernel : firstRow (encode (.wrStatus 0)) = rowOf (.wrStatus 0))

theorem rdKeyLow (j : Fin 4) : Statement (.rdKeyLow j) := fun _ =>
  (by decide +kernel : ∀ j, firstRow (encode (.rdKeyLow j)) = rowOf (.rdKeyLow j)) j

theorem rdKeyHigh (j : Fin 4) : Statement (.rdKeyHigh j) := fun _ =>
  (by decide +kernel : ∀ j, firstRow (encode (.rdKeyHigh j)) = rowOf (.rdKeyHigh j)) j

theorem wrKeyLow (j : Fin 4) (data : Word) : Statement (.wrKeyLow j data) := fun _ =>
  (firstRow_data _ data).trans ((by decide +kernel : ∀ j, firstRow (encode (.wrKeyLow j 0)) = rowOf (.wrKeyLow j 0)) j)

theorem wrKeyHigh (j : Fin 4) (data : Word) : Statement (.wrKeyHigh j data) := fun _ =>
  (firstRow_data _ data).trans ((by decide +kernel : ∀ j, firstRow (encode (.wrKeyHigh j 0)) = rowOf (.wrKeyHigh j 0)) j)

theorem rdDin (j : Fin 4) : Statement (.rdDin j) := fun _ =>
  (by decide +kernel : ∀ j, firstRow (encode (.rdDin j)) = rowOf (.rdDin j)) j

theorem wrDin (j : Fin 4) (data : Word) : Statement (.wrDin j data) := fun _ =>
  (firstRow_data _ data).trans ((by decide +kernel : ∀ j, firstRow (encode (.wrDin j 0)) = rowOf (.wrDin j 0)) j)

theorem rdDout (j : Fin 4) : Statement (.rdDout j) := fun _ =>
  (by decide +kernel : ∀ j, firstRow (encode (.rdDout j)) = rowOf (.rdDout j)) j

theorem wrDout (j : Fin 4) (data : Word) : Statement (.wrDout j data) := fun _ =>
  (firstRow_data _ data).trans ((by decide +kernel : ∀ j, firstRow (encode (.wrDout j 0)) = rowOf (.wrDout j 0)) j)

theorem rdRsvd (index : BitVec 6) : Statement (.rdRsvd index) :=
  (by decide +kernel : ∀ i, reservedIndex i = true → firstRow (encode (.rdRsvd i)) = rowOf (.rdRsvd i)) index

theorem wrRsvd (index : BitVec 6) (data : Word) : Statement (.wrRsvd index data) := fun h =>
  (firstRow_data _ data).trans
    ((by decide +kernel : ∀ i, reservedIndex i = true → firstRow (encode (.wrRsvd i 0)) = rowOf (.wrRsvd i 0)) index h)

theorem busErrMisaligned (wdata : Option Word) (off : BitVec 8) : Statement (.busErrMisaligned wdata off) := by
  intro h
  cases wdata with
  | none =>
    exact (by decide +kernel : ∀ o, misalignedOffset o = true →
      firstRow (encode (.busErrMisaligned none o)) = rowOf (.busErrMisaligned none o)) off h
  | some v =>
    exact (firstRow_data _ v).trans ((by decide +kernel : ∀ o, misalignedOffset o = true →
      firstRow (encode (.busErrMisaligned (some 0) o)) = rowOf (.busErrMisaligned (some 0) o)) off h)

theorem busErrNarrow (wdata : Option Word) (half : Bool) (off : BitVec 8) : Statement (.busErrNarrow wdata half off) := by
  intro _
  cases wdata with
  | none =>
    exact (by decide +kernel : ∀ h o, firstRow (encode (.busErrNarrow none h o)) = rowOf (.busErrNarrow none h o)) half off
  | some v =>
    exact (firstRow_data _ v).trans
      ((by decide +kernel : ∀ h o, firstRow (encode (.busErrNarrow (some 0) h o)) = rowOf (.busErrNarrow (some 0) h o)) half off)

end Sys2Proof.Laws.RowOf
end

