-- ==== Sys2Proof/Laws/Step.lean ====
section
/-! SUPPORT. Inversion of a step: every instruction answers a next state, and what a step can be. -/

namespace Sys2Proof.Machine

/-- The next state of each instruction, as the shared operations give it. -/
def nextState (i : Instr) (s : State) : State :=
  match i with
  | .nop _ => s
  | .cipher kl bl => hostWrite (issueOperation .cipher kl bl) s
  | .decipher kl bl => hostWrite (issueOperation .decipher kl bl) s
  | .illegal _ => hostWrite issueIllegal s
  | .rdCtrl => respond (.value 0) s
  | .wrCtrl data => hostWrite (processCommand data) s
  | .rdStatus => respond (.value (statusWord s.eng.phase s.status)) s
  | .wrStatus data => hostWrite (writeStatus data) s
  | .rdKeyLow j => respond (.value s.key[j.val]) s
  | .rdKeyHigh j => respond (.value s.key[4 + j.val]) s
  | .wrKeyLow j data => hostWrite (writeKey j.val data) s
  | .wrKeyHigh j data => hostWrite (writeKey (4 + j.val) data) s
  | .rdDin j => respond (.value s.din[j.val]) s
  | .wrDin j data => hostWrite (writeDin j.val data) s
  | .rdDout j => respond (.value s.dout[j.val]) s
  | .wrDout _ _ => s
  | .rdRsvd _ => respond (.value 0) s
  | .wrRsvd _ _ => s
  | .busErrMisaligned _ _ => respond .busError s
  | .busErrNarrow _ _ _ => respond .busError s

theorem exec_eq_next (i : Instr) (s : State) : exec i s = .next (nextState i s) := by
  cases i <;> rfl

/-- A transaction runs the instruction its descriptor decodes to, or is refused for the decoder's reason. -/
theorem runAccess_cases (td : BitVec 16) (data : Word) (s : State) :
    (∃ i, decodeTransaction td data = .ok i ∧ runAccess td data s = .next (nextState i s)) ∨
    (∃ e, decodeTransaction td data = .error e ∧ runAccess td data s = .refused (.notATransaction e)) := by
  unfold runAccess
  cases h : decodeTransaction td data with
  | ok i => exact .inl ⟨i, rfl, exec_eq_next i s⟩
  | error e => exact .inr ⟨e, rfl, rfl⟩

/-- Everything a step can be, by the event at the head of the schedule. -/
theorem step_next_cases {s t : State} (h : step s = .next t) :
    (s.schedule = [] ∧ t = completionStep s) ∨
    (∃ e rest, s.schedule = e :: rest ∧
      ((∃ td data i, e = .access td data ∧ decodeTransaction td data = .ok i ∧ t = nextState i (dequeued rest s)) ∨
       (e = .completion ∧ t = completionStep (dequeued rest s)) ∨
       (e = .round ∧ t = roundStep (dequeued rest s)) ∨
       (e = .clock ∧ t = clockStep (dequeued rest s)) ∨
       (e = .reset ∧ t = resetStep (dequeued rest s)) ∨
       (∃ b, e = .resetInput b ∧ t = resetInputStep b (dequeued rest s)))) := by
  unfold step at h
  cases hs : s.schedule with
  | nil => rw [hs] at h; cases h; exact .inl ⟨rfl, rfl⟩
  | cons e rest =>
    rw [hs] at h
    refine .inr ⟨e, rest, rfl, ?_⟩
    cases e with
    | access td data =>
      obtain ⟨i, hd, hr⟩ | ⟨r, _, hr⟩ := runAccess_cases td data (dequeued rest s)
      · simp only [takeEvent, hr] at h; cases h; exact .inl ⟨td, data, i, rfl, hd, rfl⟩
      · simp [takeEvent, hr] at h
    | completion => cases h; exact .inr (.inl ⟨rfl, rfl⟩)
    | round => cases h; exact .inr (.inr (.inl ⟨rfl, rfl⟩))
    | clock => cases h; exact .inr (.inr (.inr (.inl ⟨rfl, rfl⟩)))
    | reset => cases h; exact .inr (.inr (.inr (.inr (.inl ⟨rfl, rfl⟩))))
    | resetInput b => cases h; exact .inr (.inr (.inr (.inr (.inr ⟨b, rfl, rfl⟩))))

end Sys2Proof.Machine
end

