-- ==== Sys2Proof/Tests/Slice0.lean ====
section
/-! SUPPORT. Tests: words and results taken from the spec (mostly spec/95_test_vectors.md, whose section each comment
names), and for every obligation with hypotheses a concrete state and operands that meet them. -/

namespace Sys2Proof.Tests

-- The kernel evaluations below run one after another, which keeps the memory of one compile small.
set_option Elab.async false

open Sys2Proof.Machine

/-! ### Helpers -/

/-- A byte sequence from its hexadecimal digits, byte 0 first. -/
def bytesOf (len n : Nat) : List Byte := (List.range len).map fun i => BitVec.ofNat 8 (n >>> (8 * (len - 1 - i)))

/-- A State from its bytes in StoreState order. -/
def matrixOf (n : Nat) : Matrix := loadState (bytesOf 16 n)

/-- The State with one given column, and zero columns beside it. -/
def columnOf (n : Nat) : Quad := (keyWord (bytesOf 4 n) 0)

/-- The D00 section 8 key and plaintext (section 1.1). -/
def docKey : List Byte := bytesOf 16 0x0f1571c947d9e8590cb7add6af7f6798
def docPlain : List Byte := bytesOf 16 0x0123456789abcdeffedcba9876543210
def docCipher : List Byte := bytesOf 16 0xff0b844a0853bf7c6934ab4364148fb9

/-- STATUS = 0x0000003E. -/
def allOutcomes : Status := ⟨true, true, true, true, true⟩

/-- An idle engine with the section 1.1 operands, a result and every outcome bit set. -/
def idleState : State :=
  { State.reset with
    key := #v[0xC971150F, 0x59E8D947, 0xD6ADB70C, 0x98677FAF, 0x44444444, 0x55555555, 0x66666666, 0x77777777]
    din := #v[0x67452301, 0xEFCDAB89, 0x98BADCFE, 0x10325476]
    dout := #v[0xD0D0D0D0, 0xD1D1D1D1, 0xD2D2D2D2, 0xD3D3D3D3]
    status := allOutcomes }

/-- An engine running an operation on the section 1.1 key and a block, with three cycles left. -/
def busyState (op : Operation) (block : List Byte) : State :=
  { idleState with
    status := ⟨false, false, false, false, false⟩
    eng :=
      { phase := .busy, op := op, nk := .aes128, key := docKey, blk := block, remaining := 3
        s := pipelineStart op .aes128 (expand .aes128 docKey) block
        w := expand .aes128 docKey
        round := firstRound op .aes128 } }

def busyCipher : State := busyState .cipher docPlain

/-- s with these events still to come. -/
def scheduled (es : List Event) (s : State) : State := { s with schedule := es }

/-- The reset input asserted, all state at its reset value. -/
def heldState : State := { State.reset with resetAsserted := true }

def nextOf (o : Host.Outcome State Fault Refusal) : Option State :=
  match o with
  | .next t => some t
  | _ => none

def refusalOf (o : Host.Outcome State Fault Refusal) : Option Refusal :=
  match o with
  | .refused r => some r
  | _ => none

/-- STATUS as a read returns it. -/
def statusOf (s : State) : Word := statusWord s.eng.phase s.status

/-! ### Well-formedness -/

theorem test_illformed_illegal_is_a_cipher_word : (Instr.illegal 0x00101001).wellFormed = false := by decide
theorem test_illformed_illegal_is_a_nop_word : (Instr.illegal 0x00000000).wellFormed = false := by decide
theorem test_illformed_rsvd_read_of_ctrl : (Instr.rdRsvd 0x00).wellFormed = false := by decide
theorem test_illformed_rsvd_read_of_dout3 : (Instr.rdRsvd 0x13).wellFormed = false := by decide
theorem test_illformed_rsvd_write_of_status : (Instr.wrRsvd 0x01 0).wellFormed = false := by decide
theorem test_illformed_misaligned_at_aligned : (Instr.busErrMisaligned none 0x10).wellFormed = false := by decide

/-! ### Decoding, on words written out from R301 and R303 (sections 6 and 7.1; R307) -/

/-- Command words: OP 0, 1, 2, an OP above 2, and each reserved field of an OP 1 word. -/
theorem test_decode_commands :
    decodeCommand 0b11111111111111111111111111110000 = .nop 0xFFFFFFF ∧
    decodeCommand 0b00000000000100000001000000000001 = .cipher 16 16 ∧
    decodeCommand 0b00000000000100000001100000000001 = .cipher 24 16 ∧
    decodeCommand 0b00000000000100000010000000000010 = .decipher 32 16 ∧
    decodeCommand 0b00000000000111110011111100000010 = .decipher 63 31 ∧
    decodeCommand 0b00000000000100000001000000000011 = .illegal 0x00101003 ∧
    decodeCommand 0b10000000000100000001000000000001 = .illegal 0x80101001 ∧
    decodeCommand 0b00000000001000000001000000000001 = .illegal 0x00201001 ∧
    decodeCommand 0b00000000000100000101000000000001 = .illegal 0x00105001 ∧
    decodeCommand 0b00000000000100000001000010000010 = .illegal 0x00101082 := by decide

/-- Register reads: W = 0, zeros, SIZE = 10, OFF. -/
theorem test_decode_register_reads :
    decodeTransaction 0b0000001000000000 0 = .ok .rdCtrl ∧
    decodeTransaction 0b0000001000000100 0 = .ok .rdStatus ∧
    decodeTransaction 0b0000001000011100 0 = .ok (.rdKeyLow 3) ∧
    decodeTransaction 0b0000001000100000 0 = .ok (.rdKeyHigh 0) ∧
    decodeTransaction 0b0000001000101100 0 = .ok (.rdKeyHigh 3) ∧
    decodeTransaction 0b0000001000111000 0 = .ok (.rdDin 2) ∧
    decodeTransaction 0b0000001001000100 0 = .ok (.rdDout 1) ∧
    decodeTransaction 0b0000001000001000 0 = .ok (.rdRsvd 0x02) ∧
    decodeTransaction 0b0000001011111100 0 = .ok (.rdRsvd 0x3F) := by decide

/-- Register writes: W = 1, zeros, SIZE = 10, OFF. -/
theorem test_decode_register_writes :
    decodeTransaction 0b1000001000000000 0x00101001 = .ok (.wrCtrl 0x00101001) ∧
    decodeTransaction 0b1000001000000100 0x3E = .ok (.wrStatus 0x3E) ∧
    decodeTransaction 0b1000001000010000 0xC971150F = .ok (.wrKeyLow 0 0xC971150F) ∧
    decodeTransaction 0b1000001000101100 0x12345678 = .ok (.wrKeyHigh 3 0x12345678) ∧
    decodeTransaction 0b1000001000111100 0x10325476 = .ok (.wrDin 3 0x10325476) ∧
    decodeTransaction 0b1000001001000000 0xFFFFFFFF = .ok (.wrDout 0 0xFFFFFFFF) ∧
    decodeTransaction 0b1000001001010000 7 = .ok (.wrRsvd 0x14 7) := by decide

/-- Misaligned and narrow accesses (section 6 rows 16 to 18), and a misaligned write. -/
theorem test_decode_bus_errors :
    decodeTransaction 0b0000001000010010 0 = .ok (.busErrMisaligned none 0x12) ∧
    decodeTransaction 0b1000001000000011 5 = .ok (.busErrMisaligned (some 5) 0x03) ∧
    decodeTransaction 0b1000000000010000 0xAA = .ok (.busErrNarrow (some 0xAA) false 0x10) ∧
    decodeTransaction 0b0000000100110000 0 = .ok (.busErrNarrow none true 0x30) := by decide

/-- SIZE = 3 and a reserved bit spell no transaction (R302). -/
theorem test_decode_refusals :
    decodeTransaction 0x0312 0 = .error .sizeNotATransaction ∧
    decodeTransaction 0x0600 0 = .error .reservedBitsSet ∧
    decodeTransaction 0xC200 0 = .error .reservedBitsSet := by decide

/-- The words the encoder writes: R301, R303. -/
theorem test_encode_words :
    encode (.cipher 16 16) = .command 0x00101001 ∧ encode (.wrKeyHigh 3 1) = .transaction 0x822C 1 ∧
    encode (.busErrNarrow (some 0xAA) false 0x10) = .transaction 0x8010 0xAA := by decide

/-- The table's numbering of bits. -/
theorem test_table_words :
    decodeTableWord 32 0x00101001 = some (.cipher 16 16) ∧ decodeTableWord 16 0x8200 = some (.wrCtrl 0) ∧
    decodeTableWord 48 0xC971150F8210 = some (.wrKeyLow 0 0xC971150F) ∧ decodeTableWord 16 0x0300 = none := by decide

/-- A command word is issued as the data of a CTRL write, and is the next thing the machine runs. -/
theorem test_fetch_word :
    (State.reset.withFetchWord 32 0x00101003).schedule = [.access 0x8200 0x00101003] ∧
    (nextOf (step (State.reset.withFetchWord 32 0x00101003))).map statusOf = some 0x00000010 ∧
    (nextOf (step (State.reset.withFetchWord 16 0x0200))).map (·.observed) = some [.value 0] := by decide

/-! ### The algorithm -/

/-- Section 2.1. -/
theorem test_xtime : xtime 0x57 = 0xAE ∧ xtime 0xAE = 0x47 ∧ xtime 0x80 = 0x1B ∧ xtime 0xFF = 0xE5 := by decide

/-- Section 2.2. -/
theorem test_gmul :
    gmul 0x57 0x83 = 0xC1 ∧ gmul 0x57 0x13 = 0xFE ∧ gmul 0xFF 0xFF = 0x13 ∧ gmul 0x53 0xCA = 0x01 ∧
    gmul 0x0E 0x0B = 0x62 := by decide

/-- Section 2.5. -/
theorem test_sbox :
    sub 0x00 = 0x63 ∧ sub 0x53 = 0xED ∧ sub 0xC9 = 0xDD ∧ sub 0xFF = 0x16 ∧ invSub 0x00 = 0x52 ∧ invSub 0x8D = 0xB4 ∧
    invSub 0xFF = 0x7D := by decide

/-- R502's ten constants. -/
theorem test_rcon :
    (List.range 10).map (fun j => rcon (j + 1)) = [0x01, 0x02, 0x04, 0x08, 0x10, 0x20, 0x40, 0x80, 0x1B, 0x36] := by
  decide

/-- Sections 3.1 to 3.4: first derived word, the SubWord-only word of the 256-bit key, last words. -/
theorem test_expand :
    (expand .aes128 docKey)[4]? = some (columnOf 0xdc9037b0) ∧
    (expand .aes128 docKey)[43]? = some (columnOf 0x86261876) ∧
    (expand .aes192 (bytesOf 24 0x8e73b0f7da0e6452c810f32b809079e562f8ead2522c6b7b))[51]? = some (columnOf 0x01002202) ∧
    (expand .aes256 (bytesOf 32 0x603deb1015ca71be2b73aef0857d77811f352c073b6108d72d9810a30914dff4))[12]? =
      some (columnOf 0xa8b09c1a) ∧
    (expand .aes256 (bytesOf 32 0x603deb1015ca71be2b73aef0857d77811f352c073b6108d72d9810a30914dff4))[59]? =
      some (columnOf 0x706c631e) := by decide +kernel

/-- Section 4, on the State 00 01 .. 0f. -/
theorem test_row_transforms :
    shiftRows (matrixOf 0x000102030405060708090a0b0c0d0e0f) = matrixOf 0x00050a0f04090e03080d02070c01060b ∧
    invShiftRows (matrixOf 0x000102030405060708090a0b0c0d0e0f) = matrixOf 0x000d0a0704010e0b0805020f0c090603 ∧
    subBytes (matrixOf 0x000102030405060708090a0b0c0d0e0f) = matrixOf 0x637c777bf26b6fc53001672bfed7ab76 ∧
    invSubBytes (matrixOf 0x000102030405060708090a0b0c0d0e0f) = matrixOf 0x52096ad53036a538bf40a39e81f3d7fb := by
  decide +kernel

/-- Section 4, on the State 0e 36 .. 88, and section 4.2. -/
theorem test_column_transforms :
    mixColumns (matrixOf 0x0e3634aece7225b6f26b174ed92b5588) = matrixOf 0xdc90b95782f337691b5365ed09f8db05 ∧
    invMixColumns (matrixOf 0x0e3634aece7225b6f26b174ed92b5588) = matrixOf 0x53a1366660add537f89d86236c21bedc ∧
    addRoundKey (loadState docPlain) (expand .aes128 docKey) 0 = matrixOf 0x0e3634aece7225b6f26b174ed92b5588 := by
  decide +kernel

/-- D00 section 8's vector, both ways (section 1.1). -/
theorem test_known_answer_doc :
    cipher .aes128 docPlain docKey = docCipher ∧ invCipher .aes128 docCipher docKey = docPlain := by decide +kernel

/-- FIPS-197 C.2 and C.3, both ways (section 5.1). -/
theorem test_known_answer_fips192 :
    cipher .aes192 (bytesOf 16 0x00112233445566778899aabbccddeeff)
        (bytesOf 24 0x000102030405060708090a0b0c0d0e0f1011121314151617) =
      bytesOf 16 0xdda97ca4864cdfe06eaf70a0ec0d7191 ∧
    invCipher .aes192 (bytesOf 16 0xdda97ca4864cdfe06eaf70a0ec0d7191)
        (bytesOf 24 0x000102030405060708090a0b0c0d0e0f1011121314151617) =
      bytesOf 16 0x00112233445566778899aabbccddeeff := by decide +kernel
theorem test_known_answer_fips256 :
    cipher .aes256 (bytesOf 16 0x00112233445566778899aabbccddeeff)
        (bytesOf 32 0x000102030405060708090a0b0c0d0e0f101112131415161718191a1b1c1d1e1f) =
      bytesOf 16 0x8ea2b7ca516745bfeafc49904b496089 ∧
    invCipher .aes256 (bytesOf 16 0x8ea2b7ca516745bfeafc49904b496089)
        (bytesOf 32 0x000102030405060708090a0b0c0d0e0f101112131415161718191a1b1c1d1e1f) =
      bytesOf 16 0x00112233445566778899aabbccddeeff := by decide +kernel

/-! ### One step of each instruction -/

/-- Section 7.2, rows on NOP: 0x3E stays 0x3E, idle. -/
theorem test_nop : (nextOf (exec (.wrCtrl 0x00000000) idleState)).map statusOf = some 0x0000003E := by decide

/-- Section 7.2 row 1: from 0x3E, CIPHER gives 0x21; the snapshot is KEYB(0..15) and DINB(0..15) (R703). -/
theorem test_cipher :
    (nextOf (exec (.cipher 16 16) idleState)).map
      (fun t => (statusOf t, t.eng.op, t.eng.nk, t.eng.key, t.eng.blk)) =
      some (0x00000021, .cipher, .aes128, docKey, docPlain) := by decide +kernel

/-- Section 7.1: BLKLEN 31 leaves 8 from a clear STATUS. -/
theorem test_cipher_bad_block_length :
    (nextOf (exec (.cipher 16 31) State.reset)).map statusOf = some 0x00000008 := by decide

/-- A 256-bit DECIPHER takes all eight KEY registers (R703, R708). -/
theorem test_decipher :
    (nextOf (exec (.decipher 32 16) idleState)).map
      (fun t => (statusOf t, t.eng.op, t.eng.nk, t.eng.key.drop 28)) =
      some (0x00000021, .decipher, .aes256, [0x77, 0x77, 0x77, 0x77]) := by decide +kernel

/-- Section 7.1: KEYLEN 20 and BLKLEN 8 give both errors. -/
theorem test_decipher_bad_lengths :
    (nextOf (exec (.decipher 20 8) State.reset)).map statusOf = some 0x0000000C := by decide

/-- Section 7.2: 0x24 becomes 0x30 for an illegal word; while BUSY it is OVR (0x01 becomes 0x21). -/
theorem test_illegal :
    (nextOf (exec (.illegal 0x00101003) { idleState with status := ⟨false, true, false, false, true⟩ })).map statusOf =
      some 0x00000030 := by decide
theorem test_illegal_busy :
    (nextOf (exec (.illegal 0x00101003) busyCipher)).map statusOf = some 0x00000021 := by decide +kernel

/-- Section 7.2 row 3: 0x02 becomes 0x04 for KEYLEN 20; section 7.1: 0x00101802 is accepted from reset. -/
theorem test_wrCtrl_bad_key_length :
    (nextOf (exec (.wrCtrl 0x00101401) { idleState with status := ⟨true, false, false, false, false⟩ })).map statusOf =
      some 0x00000004 := by decide
theorem test_wrCtrl_accepts :
    (nextOf (exec (.wrCtrl 0x00101802) State.reset)).map (fun t => (statusOf t, t.eng.op, t.eng.nk)) =
      some (0x00000001, .decipher, .aes192) := by decide +kernel

/-- Section 6 row 1. -/
theorem test_rdCtrl : (nextOf (exec .rdCtrl idleState)).map (·.observed) = some [.value 0x00000000] := by decide

/-- R653: OVR to DONE are bits 5 to 1, BUSY is bit 0. -/
theorem test_rdStatus : (nextOf (exec .rdStatus idleState)).map (·.observed) = some [.value 0x0000003E] := by decide
theorem test_rdStatus_busy :
    (nextOf (exec .rdStatus busyCipher)).map (·.observed) = some [.value 0x00000001] := by decide +kernel

/-- Section 7.2, W1C: from 0x3E, 0x22 leaves 0x1C; BUSY is read-only. -/
theorem test_wrStatus :
    (nextOf (exec (.wrStatus 0x00000022) idleState)).map statusOf = some 0x0000001C := by decide
theorem test_wrStatus_busy :
    (nextOf (exec (.wrStatus 0x00000001) busyCipher)).map statusOf = some 0x00000001 := by decide +kernel

theorem test_rdKeyLow : (nextOf (exec (.rdKeyLow 0) idleState)).map (·.observed) = some [.value 0xC971150F] := by decide
theorem test_rdKeyHigh : (nextOf (exec (.rdKeyHigh 3) idleState)).map (·.observed) = some [.value 0x77777777] := by
  decide
theorem test_rdDin : (nextOf (exec (.rdDin 3) idleState)).map (·.observed) = some [.value 0x10325476] := by decide
theorem test_rdDout : (nextOf (exec (.rdDout 1) idleState)).map (·.observed) = some [.value 0xD1D1D1D1] := by decide
theorem test_rdRsvd : (nextOf (exec (.rdRsvd 0x3F) idleState)).map (·.observed) = some [.value 0x00000000] := by decide

/-- Section 6 rows 2, 4, 6, 8, 10, 14. -/
theorem test_wrKeyLow :
    (nextOf (exec (.wrKeyLow 1 0x12345678) idleState)).map (fun t => (t.key[0], t.key[1], t.key[5])) =
      some (0xC971150F, 0x12345678, 0x55555555) := by decide
theorem test_wrKeyHigh :
    (nextOf (exec (.wrKeyHigh 3 0x12345678) idleState)).map (fun t => (t.key[3], t.key[7])) =
      some (0x98677FAF, 0x12345678) := by decide
theorem test_wrDin :
    (nextOf (exec (.wrDin 3 0) idleState)).map (fun t => (t.din[3], t.key[3])) = some (0, 0x98677FAF) := by decide
theorem test_wrDout : (nextOf (exec (.wrDout 0 0xFFFFFFFF) idleState)).map (·.dout[0]) = some 0xD0D0D0D0 := by decide
theorem test_wrRsvd : nextOf (exec (.wrRsvd 0x02 0xFFFFFFFF) idleState) = some idleState := by decide

/-- Section 6 rows 16 and 17: BUSERR, no state change. -/
theorem test_busErrMisaligned :
    nextOf (exec (.busErrMisaligned none 0x12) idleState) = some { idleState with observed := [.busError] } := by decide
theorem test_busErrNarrow :
    nextOf (exec (.busErrNarrow (some 0xAA) false 0x10) idleState) =
      some { idleState with observed := [.busError] } := by decide

/-! ### Steps of the engine and of the reset input -/

/-- R705 and section 7.1: the completion gives STATUS 2 and the section 1.1 ciphertext. -/
theorem test_completion_cipher :
    (nextOf (step (scheduled [.completion] busyCipher))).map (fun t => (statusOf t, t.dout)) =
      some (0x00000002, #v[0x4A840BFF, 0x7CBF5308, 0x43AB3469, 0xB98F1464]) := by decide +kernel

/-- Section 7.1: InvCipher of the plaintext is 0x1F22E01F, 0xC4126719, 0x1C5CCDBE, 0xA6BA7160. -/
theorem test_completion_decipher :
    (nextOf (step (scheduled [] (busyState .decipher docPlain)))).map (·.dout) =
      some #v[0x1F22E01F, 0xC4126719, 0x1C5CCDBE, 0xA6BA7160] := by decide +kernel

/-- Section 5.3: after one round the State is "start of round 2"; after one inverse round, section 5.4's round 9. -/
theorem test_round :
    (nextOf (step (scheduled [.round] busyCipher))).map (fun t => (t.eng.s, t.eng.round)) =
      some (matrixOf 0x657470750fc7ff3fc0e8e8ca4dd02a9c, 1) := by decide +kernel
theorem test_round_decipher :
    (nextOf (step (scheduled [.round] (busyState .decipher docCipher)))).map (fun t => (t.eng.s, t.eng.round)) =
      some (matrixOf 0x991897a71e153b0873308408f1afdd0c, 9) := by decide +kernel

/-- R706: three cycles left become two, and one becomes the completion. -/
theorem test_clock :
    (nextOf (step (scheduled [.clock] busyCipher))).map (fun t => (t.eng.remaining, statusOf t)) =
      some (2, 0x00000001) := by decide +kernel
theorem test_clock_last :
    (nextOf (step (scheduled [.clock] { busyCipher with eng := { busyCipher.eng with remaining := 1 } }))).map
      (fun t => (t.eng.remaining, statusOf t, t.dout[0])) = some (0, 0x00000002, 0x4A840BFF) := by decide +kernel

/-- R802: after a reset while BUSY, DOUT and STATUS are 0. -/
theorem test_reset_while_busy :
    (nextOf (step (scheduled [.reset] busyCipher))).map (fun t => (t.dout, statusOf t, t.key[0])) =
      some (#v[0, 0, 0, 0], 0x00000000, 0) := by decide +kernel

/-- R800: a write while reset is asserted has no effect. -/
theorem test_write_in_reset :
    (nextOf (step (scheduled [.access 0x8210 7] heldState))).map (·.key[0]) = some 0 := by decide

/-- R302 at the port. -/
theorem test_refused_access :
    refusalOf (step (scheduled [.access 0x0312 0] idleState)) = some (.notATransaction .sizeNotATransaction) ∧
    refusalOf (step (scheduled [.access 0x0400 0] idleState)) = some (.notATransaction .reservedBitsSet) := by decide

/-- R310, R309: what CIPHER256, LOADKEY's first write and WAIT expand to (section 8, P3). -/
theorem test_script :
    cipherCommand .aes256 = .access 0x8200 0x00102001 ∧
    loadKey docKey = [.access 0x8210 0xC971150F, .access 0x8214 0x59E8D947, .access 0x8218 0xD6ADB70C,
      .access 0x821C 0x98677FAF] ∧
    wait 1 = [.access 0x0204 0] ∧ write8 0x10 0xAA = .access 0x8010 0xAA ∧
    isPollTrace 0x00000001 0x00000000 [0x00000001, 0x00000002] = true := by decide

/-! ### Witnesses: for each obligation with hypotheses, a state and operands that meet them -/

/-- At the ends of the reserved range, and with every optional part. -/
theorem test_witness_DecodeOfEncodeIsIdentity :
    (Instr.cipher 0 31).wellFormed = true ∧ (Instr.illegal 0xFFFFFFFF).wellFormed = true ∧
    (Instr.rdRsvd 0x14).wellFormed = true ∧ (Instr.wrRsvd 0x3F 7).wellFormed = true ∧
    (Instr.busErrMisaligned (some 7) 0xFF).wellFormed = true ∧ (Instr.busErrNarrow none true 0).wellFormed = true := by
  decide

theorem test_witness_EncodeOfDecodeIsIdentity : decodeTransaction 0x81FF 7 = .ok (.busErrNarrow (some 7) true 0xFF) := by
  decide

theorem test_witness_DecoderTakesFirstMatchingRow :
    decode (.transaction 0x02FC 7) = .ok (.rdRsvd 0x3F) ∧ decode (.command 0x00000003) = .ok (.illegal 3) := by decide

/-- Each clause: a reserved bit, SIZE 3, each kind of bus error, an aligned 32-bit access. -/
theorem test_witness_DescriptorsRefusedAnsweredOrSelected :
    (scheduled [.access 0x4200 0] idleState).schedule = .access 0x4200 0 :: [] ∧
    (0x4200#16).extractLsb' 10 5 ≠ 0 ∧
    (0x8300#16).extractLsb' 10 5 = 0 ∧ (0x8300#16).extractLsb' 8 2 = 3 ∧
    (0x0000#16).extractLsb' 8 2 = 0 ∧ (0x0100#16).extractLsb' 8 2 = 1 ∧
    (0x0203#16).extractLsb' 8 2 = 2 ∧ (0x0203#16).extractLsb' 0 2 ≠ 0 ∧
    (0x82FC#16).extractLsb' 10 5 = 0 ∧ (0x82FC#16).extractLsb' 8 2 = 2 ∧ (0x82FC#16).extractLsb' 0 2 = 0 := by decide

theorem test_witness_StepRunsDecodedInstruction :
    (scheduled [.access 0x8210 7, .clock] idleState).schedule = .access 0x8210 7 :: [.clock] ∧
    decodeTransaction 0x8210 7 = .ok (.wrKeyLow 0 7) := by decide

theorem test_witness_CtrlWriteRunsItsCommandWord :
    (scheduled [.access 0x8200 0x00101001] idleState).schedule = .access 0x8200 0x00101001 :: [] := by decide

/-- Both ends of a step: descriptors that spell no transaction, for each reason, and an access that spells one. -/
theorem test_witness_StepStopsOnlyOnRefusedDescriptor :
    (scheduled [.access 0xFFFF 0] idleState).schedule = .access 0xFFFF 0 :: [] ∧
    ¬SpellsTransaction 0xFFFF ∧ ¬SpellsTransaction 0x0400 ∧ ¬SpellsTransaction 0x0300 ∧
    ∀ td data rest, (scheduled [.access 0x81FF 0] idleState).schedule = .access td data :: rest →
      SpellsTransaction td :=
  ⟨rfl, by unfold SpellsTransaction; decide, by unfold SpellsTransaction; decide,
    by unfold SpellsTransaction; decide, fun _ _ _ h => by cases h; exact ⟨by decide, by decide⟩⟩

theorem test_witness_StepTakesOneEvent :
    step (scheduled [.access 0x0200 0] idleState) = .next (respond (.value 0) idleState) := rfl

theorem test_witness_NopHasNoEffect : (0xFFFFFFF0#32).extractLsb' 0 4 = 0 := by decide

theorem test_witness_BusyCommandIsDiscarded :
    busyCipher.resetAsserted = false ∧ busyCipher.eng.phase = .busy ∧ (0x00000001#32).extractLsb' 0 4 ≠ 0 := by decide

theorem test_witness_ValidCommandIsAccepted :
    idleState.resetAsserted = false ∧ idleState.eng.phase = .idle ∧
    Instr.cipher 16 16 = .cipher (BitVec.ofNat 6 (4 * KeySize.aes128.words)) 16 ∧
    Instr.decipher 32 16 = .decipher (BitVec.ofNat 6 (4 * KeySize.aes256.words)) 16 := by decide

/-- Each length error alone and both together, beside the legal lengths. -/
theorem test_witness_InvalidLengthsAreRecorded :
    (15#6).toNat ∉ [16, 24, 32] ∧ (33#6).toNat ∉ [16, 24, 32] ∧ (15#5).toNat ≠ 16 ∧ (17#5).toNat ≠ 16 ∧
    ¬((24#6).toNat ∉ [16, 24, 32]) ∧ idleState.resetAsserted = false ∧ idleState.eng.phase = .idle := by decide

theorem test_witness_IllegalCommandRecordsOnlyIllegal :
    3 ≤ ((0x00000003#32).extractLsb' 0 4).toNat ∧
    (0x00101011#32).extractLsb' 0 4 ≠ 0 ∧ (0x00101011#32).extractLsb' 4 4 ≠ 0 ∧
    (0x00105001#32).extractLsb' 14 2 ≠ 0 ∧ (0x80101002#32).extractLsb' 21 11 ≠ 0 ∧
    idleState.resetAsserted = false ∧ idleState.eng.phase = .idle := by decide

theorem test_witness_CtrlWriteReportsInPriorityOrder :
    idleState.resetAsserted = false ∧ busyCipher.resetAsserted = false ∧
    ((0x00101001#32).extractLsb' 0 4 != 0) = true ∧ ((0x00101000#32).extractLsb' 0 4 != 0) = false ∧
    busyCipher.eng.phase.busyBit = true ∧ idleState.eng.phase.busyBit = false := by decide

theorem test_witness_RejectedCommandStartsNothing :
    ((0x00101001#32).extractLsb' 0 4 ≠ 0 ∧ busyCipher.eng.phase = .busy) ∧ illegalCommand 0x00101003 = true ∧
    ((0x00100F01#32).extractLsb' 8 6).toNat ∉ [16, 24, 32] ∧ (0x00111001#32).extractLsb' 16 5 ≠ 16 := by decide

/-- Each range of the address map, at its ends. -/
theorem test_witness_WindowReadFollowsAddressMap :
    (scheduled [.access 0x02FC 7] idleState).schedule = .access (descriptor false 2 0xFC) 7 :: [] ∧
    windowValue idleState 0x00 = 0 ∧ windowValue idleState 0x04 = 0x3E ∧ windowValue idleState 0x0C = 0 ∧
    windowValue idleState 0x10 = 0xC971150F ∧ windowValue idleState 0x2C = 0x77777777 ∧
    windowValue idleState 0x30 = 0x67452301 ∧ windowValue idleState 0x3C = 0x10325476 ∧
    windowValue idleState 0x40 = 0xD0D0D0D0 ∧ windowValue idleState 0x4C = 0xD3D3D3D3 ∧
    windowValue idleState 0x50 = 0 ∧ windowValue idleState 0xFC = 0 := by decide

/-- The first and the last register of each array. -/
theorem test_witness_OperandWritesStoreOneRegister :
    idleState.resetAsserted = false ∧
    (scheduled [.access 0x8210 7] idleState).schedule = .access (0x8210 + 4 * BitVec.ofNat 16 (0 : Fin 8).val) 7 :: [] ∧
    (scheduled [.access 0x822C 7] idleState).schedule = .access (0x8210 + 4 * BitVec.ofNat 16 (7 : Fin 8).val) 7 :: [] ∧
    (scheduled [.access 0x8230 7] idleState).schedule = .access (0x8230 + 4 * BitVec.ofNat 16 (0 : Fin 4).val) 7 :: [] ∧
    (scheduled [.access 0x823C 7] idleState).schedule = .access (0x8230 + 4 * BitVec.ofNat 16 (3 : Fin 4).val) 7 :: [] := by
  decide

theorem test_witness_OperandWriteInstructionsComplete : idleState.resetAsserted = false := by decide

theorem test_witness_StatusWriteClearsWrittenOnes :
    idleState.resetAsserted = false ∧ idleState.status.ovr = true ∧ (0x00000020#32).getLsbD 5 = true ∧
    (scheduled [.access 0x8204 0x20] idleState).schedule = .access 0x8204 0x20 :: [] := by decide

theorem test_witness_ReservedAndReadOnlyOffsets :
    ReservedOffset 0x08 ∧ ReservedOffset 0x0C ∧ ReservedOffset 0x50 ∧ ReservedOffset 0xFC ∧ ¬ReservedOffset 0x4C ∧
    ¬ReservedOffset 0x51 ∧
    (scheduled [.access 0x0250 7] idleState).schedule = .access (descriptor false 2 0x50) 7 :: [] ∧
    (scheduled [.access 0x824C 7] idleState).schedule = .access (descriptor true 2 0x4C) 7 :: [] := by
  unfold ReservedOffset; decide

theorem test_witness_BusErrorsChangeNoState :
    (scheduled [.access 0x8010 7] idleState).schedule = .access (descriptor true 0 0x10) 7 :: [] ∧
    (scheduled [.access 0x0100 7] idleState).schedule = .access (descriptor false 1 0x00) 7 :: [] ∧
    (scheduled [.access 0x02FF 7] idleState).schedule = .access (descriptor false 2 0xFF) 7 :: [] ∧
    (0xFF#8).extractLsb' 0 2 ≠ 0 := by decide

theorem test_witness_OperandWriteIsVisibleToNextRead :
    (scheduled [.access 0x823C 7, .access 0x023C 0] idleState).schedule =
      .access (descriptor true 2 0x3C) 7 :: .access (descriptor false 2 0x3C) 0 :: [] ∧
    (scheduled [.access 0x8210 7, .access 0x0210 0] idleState).schedule =
      .access (descriptor true 2 0x10) 7 :: .access (descriptor false 2 0x10) 0 :: [] ∧
    idleState.resetAsserted = false := by decide

/-- The address just past the window is outside it, whatever BASE is. -/
theorem test_witness_WindowStandsAtBase : Config.base + 256 ≤ Config.base + 256 := le_refl _

theorem test_witness_CompletionWritesTheResult :
    busyCipher.eng.phase = .busy ∧ busyCipher.eng.op = .cipher ∧ busyCipher.schedule = [] ∧
    (scheduled [.completion] (busyState .decipher docPlain)).schedule = .completion :: [] ∧
    (busyState .decipher docPlain).eng.phase = .busy ∧ (busyState .decipher docPlain).eng.op = .decipher := by decide

theorem test_witness_IdleEngineTakesNoStep :
    idleState.eng.phase = .idle ∧ idleState.schedule = [] ∧
    (scheduled [.clock] idleState).schedule = .clock :: [] := by decide

/-- A step from IDLE to BUSY, one from BUSY to IDLE by completion, and one by reset. -/
theorem test_witness_PhaseChangesAsStated :
    (∃ t, step (scheduled [.access 0x8200 0x00101001] idleState) = .next t ∧ t.eng.phase = .busy) ∧
    (∃ t, step busyCipher = .next t ∧ t.eng.phase = .idle) ∧
    (∃ t, step (scheduled [.reset] busyCipher) = .next t ∧ t.eng.phase = .idle) :=
  ⟨⟨_, rfl, rfl⟩, ⟨_, rfl, rfl⟩, ⟨_, rfl, rfl⟩⟩

theorem test_witness_OperandsChangeOnlyByHostOrReset :
    (∃ t, step (scheduled [.access 0x8210 7] idleState) = .next t ∧ t.key ≠ idleState.key) ∧
    (∃ t, step (scheduled [.access 0x823C 7] idleState) = .next t ∧ t.din ≠ idleState.din) ∧
    (∃ t, step (scheduled [.resetInput true] idleState) = .next t ∧ t.din ≠ idleState.din) :=
  ⟨⟨_, rfl, by decide⟩, ⟨_, rfl, by decide⟩, ⟨_, rfl, by decide⟩⟩

theorem test_witness_ResultChangesOnlyAtCompletionOrReset :
    (∃ t, step (scheduled [.completion] busyCipher) = .next t ∧ t.dout ≠ busyCipher.dout) ∧
    (∃ t, step (scheduled [.reset] idleState) = .next t ∧ t.dout ≠ idleState.dout) :=
  ⟨⟨_, rfl, by decide +kernel⟩, ⟨_, rfl, by decide⟩⟩

theorem test_witness_OverrunIsSticky :
    (∃ t, step (scheduled [.access 0x8204 0x20] idleState) = .next t ∧ idleState.status.ovr = true ∧
      t.status.ovr = false) ∧
    (∃ t, step (scheduled [.reset] idleState) = .next t ∧ t.status.ovr = false) :=
  ⟨⟨_, rfl, rfl, rfl⟩, ⟨_, rfl, rfl⟩⟩

theorem test_witness_SnapshotIsImmutableWhileBusy :
    ∃ t, step (scheduled [.access 0x8230 0] busyCipher) = .next t ∧ busyCipher.eng.phase = .busy ∧
      t.eng.phase = .busy ∧ t.din ≠ busyCipher.din := ⟨_, rfl, rfl, rfl, by decide⟩

theorem test_witness_AcceptedCommandCompletes :
    busyCipher.eng.phase = .busy ∧
    SchedulesTransactions (scheduled [.access 0x8200 0x00101001, .round] busyCipher).schedule :=
  ⟨rfl, fun td data h => by
    simp only [scheduled, List.mem_cons, Event.access.injEq, reduceCtorEq, List.not_mem_nil, or_false] at h
    obtain ⟨rfl, rfl⟩ := h; exact ⟨by decide, by decide⟩⟩

/-- Both clauses: two of three cycles passed with a transaction between, and then the third. -/
theorem test_witness_TimedCompletionTakesExactlyTheCyclesLeft :
    let es : List Event := [.clock, .access 0x0204 0, .clock]
    busyCipher.eng.phase = .busy ∧ (scheduled (es ++ [.clock]) busyCipher).schedule = es ++ [.clock] ∧
    es.count .clock < busyCipher.eng.remaining ∧ es.count .clock + 1 = busyCipher.eng.remaining ∧
    (0 < busyCipher.eng.remaining) ∧ SchedulesTransactions es ∧
    ∀ e ∈ es, (∃ td data, e = .access td data) ∨ e = .round ∨ e = .clock := by
  refine ⟨rfl, rfl, by decide, by decide, by decide, fun td data h => ?_, by simp⟩
  simp only [List.mem_cons, Event.access.injEq, reduceCtorEq, List.not_mem_nil, or_false, false_or] at h
  obtain ⟨rfl, rfl⟩ := h; exact ⟨by decide, by decide⟩

theorem test_witness_TimedRunsAreUntimedRuns :
    ∃ t, run 4 (scheduled [.clock, .access 0x0204 0, .clock, .clock] busyCipher) = .next t := ⟨_, rfl⟩

/-- The busy engine after all ten of its rounds. -/
theorem test_witness_RoundByRoundReachesTheResult :
    ∃ s : State, WorkingFollowsSnapshot s ∧ s.eng.phase = .busy ∧ s.eng.round = lastRound s.eng.op s.eng.nk :=
  ⟨{ busyCipher with eng := { busyCipher.eng with
      s := (workingAfter .cipher .aes128 (expand .aes128 docKey) docPlain 10).1
      round := (workingAfter .cipher .aes128 (expand .aes128 docKey) docPlain 10).2 } },
    ⟨rfl, 10, rfl⟩, rfl, by decide +kernel⟩

/-- Two idle states whose snapshot and working state differ. -/
theorem test_witness_InternalStateIsNotObservable :
    LookAlike idleState { idleState with eng := { idleState.eng with op := .decipher, key := docKey, round := 5 } } ∧
    idleState.eng.key ≠ docKey :=
  ⟨⟨rfl, rfl, rfl, rfl, rfl, rfl, fun h => (by cases h), rfl, rfl, rfl⟩, by decide⟩

/-- A busy state that meets the invariant, with a step from it. -/
theorem test_witness_StepKeepsInvariant :
    busyCipher.Inv ∧ ∃ t, step (scheduled [.access 0x8230 0] busyCipher) = .next t :=
  ⟨⟨⟨by decide, by decide⟩, fun _ => ⟨rfl, rfl, rfl, rfl⟩, fun h => (by cases h), by show 0 < 3; decide, ⟨rfl, 0, rfl⟩⟩,
    ⟨_, rfl⟩⟩

theorem test_witness_ResetAbandonsTheCommand :
    busyCipher.eng.phase = .busy ∧
    (scheduled [.reset] busyCipher).schedule = .reset :: [] ∧
    (scheduled [.resetInput true] busyCipher).schedule = .resetInput true :: [] ∧
    (scheduled [.reset] idleState).eng.phase = .idle ∧
    (scheduled [.reset] idleState).schedule = (scheduled [.reset] busyCipher).schedule ∧
    (scheduled [.reset] idleState).observed = (scheduled [.reset] busyCipher).observed := by decide

theorem test_witness_WritesHaveNoEffectInReset : heldState.resetAsserted = true := by decide

theorem test_witness_FieldLaws : (2 : Byte) ≠ 0 ∧ gmul 2 0x8D = 1 := by decide

theorem test_witness_SboxFollowsGenerationRule : gmul 0x53 0xCA = 1 ∧ affine 0xCA = 0xED ∧ affine 0 = 0x63 := by decide

/-- The first index of each clause, the last, and the two special steps of the recurrence. -/
theorem test_witness_ExpandFollowsRecurrence :
    (3 < KeySize.aes128.words ∧ docKey.length = 4 * KeySize.aes128.words) ∧
    (KeySize.aes256.words ≤ 8 ∧ 8 % KeySize.aes256.words = 0) ∧ 12 % 8 = 4 ∧
    (KeySize.aes256.words ≤ 59 ∧ 59 < 4 * (KeySize.aes256.rounds + 1)) := by decide

theorem test_witness_CipherRoundTrip : docKey.length = 4 * KeySize.aes128.words ∧ docPlain.length = 16 := by decide

/-- With the DIN writes first and two STATUS reads that see BUSY = 1. -/
theorem test_witness_HostSequenceReturnsTheResult :
    idleState.resetAsserted = false ∧ idleState.eng.phase = .idle ∧ docKey.length = 4 * KeySize.aes128.words ∧
    docPlain.length = 16 ∧
    (loadBlock docPlain ++ loadKey docKey).Perm (loadKey docKey ++ loadBlock docPlain) ∧
    (scheduled (loadBlock docPlain ++ loadKey docKey ++ [readRegister .status, cipherCommand .aes128] ++
        wait 2 ++ [.completion] ++ wait 1 ++ readBlock) idleState).schedule =
      loadBlock docPlain ++ loadKey docKey ++
        [readRegister .status, if Operation.cipher = .cipher then cipherCommand .aes128 else decipherCommand .aes128] ++
        wait 2 ++ [.completion] ++ wait 1 ++ readBlock ++ [] :=
  ⟨rfl, rfl, rfl, rfl, List.perm_append_comm, by simp [scheduled]⟩

/-- Each event of the statement, at a busy and at an idle engine. -/
theorem test_witness_ResetStepSetsEveryRegister :
    (scheduled [.reset, .clock] busyCipher).schedule = .reset :: [.clock] ∧
    (scheduled [.resetInput true] idleState).schedule = .resetInput true :: [] ∧
    (scheduled [.resetInput false] heldState).schedule = .resetInput false :: [] := by decide

theorem test_witness_ReadsInResetReturnResetValues :
    HeldInReset heldState ∧ heldState.resetAsserted = true ∧
    (scheduled [.access 0x0204 0] heldState).schedule = .access (descriptor false 2 0x04) 0 :: [] ∧
    (scheduled [.access 0x02FC 0] heldState).schedule = .access (descriptor false 2 0xFC) 0 :: [] :=
  ⟨fun _ => ⟨rfl, rfl, rfl, rfl, rfl⟩, rfl, rfl, rfl⟩

end Sys2Proof.Tests
end

section
/-! The register window (R11, R200, R209): where BASE stands and which system addresses are the engine's. -/

namespace Sys2Proof.Machine

/-- R11, R200: "a multiple of 256". -/
theorem base_mod_windowSize : Config.base % 256 = 0 :=
  Nat.mul_mod_right 256 Config.windowIndex

/-- Every offset of the window is the engine's, the last one included (R200). -/
theorem accessAt_base_add (off : BitVec 8) (write : Bool) (size : BitVec 2) (data : Word) :
    accessAt (Config.base + off.toNat) write size data = some (.access (descriptor write size off) data) := by
  have inWindow : Config.base ≤ Config.base + off.toNat ∧ Config.base + off.toNat < Config.base + 256 :=
    ⟨Nat.le_add_right .., Nat.add_lt_add_left off.isLt _⟩
  have offset : BitVec.ofNat 8 (Config.base + off.toNat - Config.base) = off := by
    rw [Nat.add_sub_cancel_left, BitVec.ofNat_toNat, BitVec.setWidth_eq]
  rw [accessAt, if_pos inWindow, offset]

/-- Addresses below and above the window are the platform's (R209). -/
theorem accessAt_outside {addr : Nat} (outside : addr < Config.base ∨ Config.base + 256 ≤ addr)
    (write : Bool) (size : BitVec 2) (data : Word) : accessAt addr write size data = none := by
  have notInWindow : ¬ (Config.base ≤ addr ∧ addr < Config.base + 256) := by omega
  rw [accessAt, if_neg notInWindow]

/-- Settles O26, from where BASE stands and what an access inside and outside the window is. -/
theorem windowStandsAtBase : Obligations.WindowStandsAtBase :=
  ⟨base_mod_windowSize, accessAt_base_add, fun _ write size data outside => accessAt_outside outside write size data⟩

end Sys2Proof.Machine
end

section
/-! What one step can do (spec/20_memory.md R211), as one relation between a state and the next: which operation of the
model was applied, and what the event and the state were then. -/

namespace Sys2Proof.Machine

/-- The rows of the KEY, DIN and DOUT registers fix every descriptor bit but TD[3:2], the register index (R301). -/
theorem descriptor_of_registerRow {row : OpcodeRow 16} {td : BitVec 16} (mask : row.mask = 0xFFF3)
    (h : row.hits td = true) : td = row.pattern + 4 * BitVec.ofNat 16 (registerIndex td).val := by
  have fixed : td &&& 0xFFF3#16 = row.pattern := by simpa [OpcodeRow.hits, mask] using h
  have free : 4 * BitVec.ofNat 16 (registerIndex td).val = td &&& 0x000C#16 := by
    have index : BitVec.ofNat 16 (registerIndex td).val = (td.extractLsb' 2 2).setWidth 16 :=
      BitVec.ofNat_toNat 16 (td.extractLsb' 2 2)
    have shift : ∀ x : BitVec 16, (4 : BitVec 16) * x = x <<< 2 := fun x => by
      rw [BitVec.shiftLeft_eq_mul_twoPow, BitVec.mul_comm]; rfl
    rw [index, shift, bits_ext_iff]
    simp [Nat.forall_lt_succ_right, forall_le_one]
  have disjoint : (td &&& 0xFFF3#16) &&& (td &&& 0x000C#16) = 0#16 := by
    rw [bits_ext_iff]; simp [Nat.forall_lt_succ_right, forall_le_one]
  rw [← fixed, free, BitVec.add_eq_or_of_and_eq_zero _ _ disjoint, ← BitVec.and_or_distrib_left]
  exact BitVec.and_allOnes.symm

/-- The CTRL and STATUS rows fix every descriptor bit. -/
theorem descriptor_of_exactRow {row : OpcodeRow 16} {td : BitVec 16} (mask : row.mask = 0xFFFF)
    (h : row.hits td = true) : td = row.pattern := by
  have fixed : td &&& 0xFFFF#16 = row.pattern := by simpa [OpcodeRow.hits, mask] using h
  exact BitVec.and_allOnes.symm.trans fixed

/-- A command word an idle engine accepts (R700, R703): a legal CIPHER or DECIPHER word with legal lengths. -/
def AcceptableCommand (v : Word) : Prop :=
  illegalCommand v = false ∧ v.extractLsb' 0 4 ≠ 0 ∧
    (v.extractLsb' 8 6).toNat ∈ [16, 24, 32] ∧ (v.extractLsb' 16 5).toNat = 16

theorem toNat_mem_of_keySizeOf {kl : BitVec 6} {nk : KeySize} (h : keySizeOf kl = some nk) :
    kl.toNat ∈ [16, 24, 32] := by
  rw [keySizeOf_eq_some h]
  cases nk <;> decide

/-- R700 step 3 and a change of STATUS after it are one change of STATUS. -/
theorem updateStatus_clearOutcome (f : Status → Status) (s : State) :
    updateStatus f (clearOutcome s) = updateStatus (fun st => f st.clearOutcome) s := rfl

/-- R700 step 4's test, negated, is R306's legal encoding. -/
theorem illegalCommand_eq_false {v : Word}
    (h : ¬ ((opField v ≠ 1 ∧ opField v ≠ 2) ∨ reservedFieldsSet v = true)) : illegalCommand v = false := by
  obtain ⟨op, reserved⟩ := not_or.mp h
  have reserved : reservedCommandBits v = false := Bool.eq_false_iff.mpr reserved
  have op : v.extractLsb' 0 4 = 1 ∨ v.extractLsb' 0 4 = 2 := by
    rwa [not_and_or, not_not, not_not] at op
  rcases op with op | op <;> simp [illegalCommand, op, reserved]

/-- `ProcessCommand(v)` (R700): no effect, an acceptance by an idle engine, or a change of STATUS that leaves DONE,
KEYERR, BLKERR and ILLEGAL alone while BUSY. -/
theorem processCommand_cases (v : Word) (s : State) :
    processCommand v s = s ∨
    (s.eng.phase = .idle ∧ AcceptableCommand v ∧
      ∃ op nk, processCommand v s = accept op nk (clearOutcome s)) ∨
    ∃ f, processCommand v s = updateStatus f s ∧
      (OutcomeExcludesBusy s → OutcomeExcludesBusy (updateStatus f s)) := by
  by_cases nop : opField v = 0x0
  · exact .inl (by simp only [processCommand, nop, if_true])
  cases phase : s.eng.phase with
  | busy =>
    have overrun : processCommand v s = updateStatus (·.record .overrun) s := by
      simp only [processCommand, nop, phase, if_true, if_false, raise]
    exact .inr (.inr ⟨_, overrun, fun h => h⟩)
  | idle =>
    have idle : ∀ f, OutcomeExcludesBusy (updateStatus f s) := fun f busy => by simp [phase] at busy
    by_cases bad : (opField v ≠ 0x1 ∧ opField v ≠ 0x2) ∨ reservedFieldsSet v = true
    · refine .inr (.inr ⟨fun st => st.clearOutcome.record .illegal, ?_, fun _ => idle _⟩)
      simp only [processCommand, nop, phase, bad, reduceCtorEq, if_true, if_false]
      rfl
    · have checks : processCommand v s = checkAndAccept (if opField v = 0x1 then .cipher else .decipher)
          (keyLenField v) (blkLenField v) (clearOutcome s) := by
        simp only [processCommand, nop, phase, bad, reduceCtorEq, if_false]
      obtain ⟨nk, size, block, accepted⟩ | ⟨-, rejected⟩ := checkAndAccept_cases
        (if opField v = 0x1 then .cipher else .decipher) (keyLenField v) (blkLenField v) (clearOutcome s) rfl rfl
      · refine .inr (.inl ⟨rfl, ⟨illegalCommand_eq_false bad, nop, toNat_mem_of_keySizeOf size, ?_⟩, _, nk,
          checks.trans accepted⟩)
        exact congrArg BitVec.toNat (beq_iff_eq.mp block)
      · exact .inr (.inr ⟨_, (checks.trans rejected).trans (updateStatus_clearOutcome _ s), fun _ => idle _⟩)

/-- Everything an event can do to a state, by the operation applied. The event is the schedule's head, or none when the
schedule is exhausted. -/
inductive StepEffect (e : Option Event) (s : State) : State → Prop where
  | unchanged : StepEffect e s s
  | responded (o : Observation) : StepEffect e s (respond o s)
  /-- A write to STATUS or a command that is not accepted. -/
  | statusUpdated (f : Status → Status) (released : s.resetAsserted = false)
      (outcome : OutcomeExcludesBusy s → OutcomeExcludesBusy (updateStatus f s)) : StepEffect e s (updateStatus f s)
  | keyWritten (j : Fin 8) (v : Word) (released : s.resetAsserted = false)
      (event : e = some (.access (0x8210 + 4 * BitVec.ofNat 16 j.val) v)) : StepEffect e s (writeKey j.val v s)
  | dinWritten (j : Fin 4) (v : Word) (released : s.resetAsserted = false)
      (event : e = some (.access (0x8230 + 4 * BitVec.ofNat 16 j.val) v)) : StepEffect e s (writeDin j.val v s)
  | accepted (op : Operation) (nk : KeySize) (v : Word) (released : s.resetAsserted = false)
      (idle : s.eng.phase = .idle) (event : e = some (.access 0x8200 v)) (legal : AcceptableCommand v) :
      StepEffect e s (accept op nk (clearOutcome s))
  | completed (busy : s.eng.phase = .busy) : StepEffect e s (complete s)
  | roundDone (busy : s.eng.phase = .busy) :
      StepEffect e s { s with eng := { s.eng with
        s := (pipelineRound s.eng.op s.eng.nk s.eng.w s.eng.s s.eng.round).1
        round := (pipelineRound s.eng.op s.eng.nk s.eng.w s.eng.s s.eng.round).2 } }
  | cyclePassed (busy : s.eng.phase = .busy) (left : 1 < s.eng.remaining) :
      StepEffect e s { s with eng := { s.eng with remaining := s.eng.remaining - 1 } }
  | reset (level : Bool) (event : e = some .reset ∨ e = some (.resetInput true)) :
      StepEffect e s { resetStep s with resetAsserted := level }
  | resetReleased : StepEffect e s { s with resetAsserted := false }

/-- A host write has no effect while reset is asserted (R800), so its effect is only asked of a released state. -/
theorem stepEffect_hostWrite {e : Option Event} {f : State → State} {s : State}
    (h : s.resetAsserted = false → StepEffect e s (f s)) : StepEffect e s (hostWrite f s) := by
  obtain ⟨-, same⟩ | ⟨released, done⟩ := hostWrite_cases f s
  · exact same.symm ▸ .unchanged
  · exact done.symm ▸ h released

theorem stepEffect_processCommand {e : Option Event} {v : Word} (event : e = some (.access 0x8200 v)) {s : State}
    (released : s.resetAsserted = false) : StepEffect e s (processCommand v s) := by
  obtain same | ⟨idle, legal, op, nk, done⟩ | ⟨f, done, outcome⟩ := processCommand_cases v s
  · exact same.symm ▸ .unchanged
  · exact done.symm ▸ .accepted op nk v released idle event legal
  · exact done.symm ▸ .statusUpdated f released outcome

/-- A write to STATUS clears bits and sets none (R654). -/
theorem outcomeExcludesBusy_writeStatus {s : State} (v : Word) (h : OutcomeExcludesBusy s) :
    OutcomeExcludesBusy (writeStatus v s) := fun busy => by
  obtain ⟨done, keyErr, blkErr, illegal⟩ := h busy
  simp [writeStatus, Status.writeOneToClear, done, keyErr, blkErr, illegal]

/-- The second KEY row continues the first one's descriptors: registers 4 to 7 (R656). -/
theorem keyHigh_descriptor : ∀ j : Fin 4,
    (0x8220 : BitVec 16) + 4 * BitVec.ofNat 16 j.val = 0x8210 + 4 * BitVec.ofNat 16 (Fin.natAdd 4 j).val := by
  decide

/-- What running the instruction does from s at event e. -/
def InstrEffect (e : Option Event) (s : State) (i : Instr) : Prop := StepEffect e s (nextState i s)

/-- A transaction (R302), row by row in the table's order. -/
theorem instrEffect_decodeRow (td : BitVec 16) (data : Word) (s : State) :
    InstrEffect (some (.access td data)) s (decodeRow td data) := by
  have access {td' : BitVec 16} (h : td = td') : some (Event.access td data) = some (.access td' data) := by rw [h]
  rw [decodeRow]
  refine iteInduction (fun rdCtrl => .responded _) fun _ => ?_
  refine iteInduction (fun wrCtrl => stepEffect_hostWrite
    (stepEffect_processCommand (access (descriptor_of_exactRow rfl wrCtrl)))) fun _ => ?_
  refine iteInduction (fun rdStatus => .responded _) fun _ => ?_
  refine iteInduction (fun wrStatus => stepEffect_hostWrite fun released =>
    .statusUpdated _ released (outcomeExcludesBusy_writeStatus data)) fun _ => ?_
  refine iteInduction (fun rdKeyLow => .responded _) fun _ => ?_
  refine iteInduction (fun rdKeyHigh => .responded _) fun _ => ?_
  refine iteInduction (fun wrKeyLow => stepEffect_hostWrite fun released =>
    .keyWritten (Fin.castAdd 4 (registerIndex td)) data released
      (access (descriptor_of_registerRow rfl wrKeyLow))) fun _ => ?_
  refine iteInduction (fun wrKeyHigh => stepEffect_hostWrite fun released =>
    .keyWritten (Fin.natAdd 4 (registerIndex td)) data released
      (access ((descriptor_of_registerRow rfl wrKeyHigh).trans (keyHigh_descriptor _)))) fun _ => ?_
  refine iteInduction (fun rdDin => .responded _) fun _ => ?_
  refine iteInduction (fun wrDin => stepEffect_hostWrite fun released =>
    .dinWritten (registerIndex td) data released (access (descriptor_of_registerRow rfl wrDin))) fun _ => ?_
  refine iteInduction (fun rdDout => .responded _) fun _ => ?_
  refine iteInduction (fun wrDout => .unchanged) fun _ => ?_
  refine iteInduction (fun rdRsvd => .responded _) fun _ => ?_
  refine iteInduction (fun wrRsvd => .unchanged) fun _ => ?_
  exact iteInduction (fun busErrMisaligned => .responded _) fun busErrNarrow => .responded _

theorem stepEffect_completionStep (e : Option Event) (s : State) : StepEffect e s (completionStep s) := by
  obtain ⟨busy, done⟩ | ⟨-, same⟩ := completionStep_cases s
  · exact done.symm ▸ .completed busy
  · exact same.symm ▸ .unchanged

theorem stepEffect_roundStep (e : Option Event) (s : State) : StepEffect e s (roundStep s) := by
  obtain ⟨-, same⟩ | ⟨busy, done⟩ := roundStep_cases s
  · exact same.symm ▸ .unchanged
  · exact done.symm ▸ .roundDone busy

theorem stepEffect_clockStep (e : Option Event) (s : State) : StepEffect e s (clockStep s) := by
  obtain ⟨-, same⟩ | ⟨busy, -, done⟩ | ⟨busy, left, done⟩ := clockStep_cases s
  · exact same.symm ▸ .unchanged
  · exact done.symm ▸ .completed busy
  · exact done.symm ▸ .cyclePassed busy left

/-- Inversion of a step: its effect on the state from which the event has been taken. -/
theorem step_effect {s t : State} (h : step s = .next t) :
    StepEffect s.schedule.head? (dequeued s.schedule.tail s) t := by
  obtain ⟨empty, rfl⟩ | ⟨e, rest, schedule, h⟩ := step_next_cases h
  · have same : dequeued s.schedule.tail s = s := by rw [dequeued, empty, List.tail_nil, ← empty]
    exact same.symm ▸ stepEffect_completionStep _ s
  rw [schedule, List.head?_cons, List.tail_cons]
  obtain ⟨td, data, i, rfl, decoded, rfl⟩ | ⟨-, rfl⟩ | ⟨-, rfl⟩ | ⟨-, rfl⟩ | ⟨rfl, rfl⟩ |
    ⟨level, rfl, rfl⟩ := h
  · obtain ⟨-, refused⟩ | ⟨-, -, refused⟩ | ⟨-, -, row⟩ := decodeTransaction_cases td data
    · rw [refused] at decoded; cases decoded
    · rw [refused] at decoded; cases decoded
    · obtain rfl : decodeRow td data = i := Except.ok.inj (row.symm.trans decoded)
      exact instrEffect_decodeRow td data _
  · exact stepEffect_completionStep _ _
  · exact stepEffect_roundStep _ _
  · exact stepEffect_clockStep _ _
  · exact .reset s.resetAsserted (.inl rfl)
  · cases level with
    | true => exact .reset true (.inr rfl)
    | false => exact .resetReleased

end Sys2Proof.Machine
end

section
/-! The machine's invariant (Safety.lean): it holds at reset and every step keeps it. -/

namespace Sys2Proof.Machine

/-- A busy engine is not in reset (R800). -/
theorem State.Inv.released_of_busy {s : State} (h : s.Inv) (busy : s.eng.phase = .busy) : s.resetAsserted = false := by
  by_contra asserted
  obtain ⟨-, -, -, -, eng⟩ := h.heldInReset (Bool.eq_true_of_not_eq_false asserted)
  rw [eng] at busy
  cases busy

theorem heldInReset_of_released {s : State} (released : s.resetAsserted = false) : HeldInReset s := fun asserted => by
  rw [released] at asserted
  cases asserted

/-- What an effect outside the engine must keep of the invariant: all else of it is about the engine. -/
theorem State.Inv.of_eng_eq {s t : State} (h : s.Inv) (eng : t.eng = s.eng) (outcome : OutcomeExcludesBusy t)
    (held : HeldInReset t) : t.Inv where
  snapshotSized := by rw [SnapshotSized, eng]; exact h.snapshotSized
  outcomeExcludesBusy := outcome
  heldInReset := held
  cyclesLeft := by rw [CyclesLeft, eng]; exact h.cyclesLeft
  workingFollowsSnapshot := by rw [WorkingFollowsSnapshot, eng]; exact h.workingFollowsSnapshot

theorem inv_dequeued {s : State} (h : s.Inv) (rest : List Event) : (dequeued rest s).Inv :=
  h.of_eng_eq rfl h.outcomeExcludesBusy h.heldInReset

/-- Acceptance (R703): a full snapshot, at least one cycle, no round done, and R700 step 3 has cleared the outcome. -/
theorem inv_accept (op : Operation) (nk : KeySize) {s : State} (released : s.resetAsserted = false) :
    (accept op nk (clearOutcome s)).Inv where
  snapshotSized := ⟨by simp [keyOperand], by simp [blockOperand]⟩
  outcomeExcludesBusy := fun _ => ⟨rfl, rfl, rfl, rfl⟩
  heldInReset := heldInReset_of_released released
  cyclesLeft := Nat.succ_pos (Config.latBeyondOne op nk)
  workingFollowsSnapshot := ⟨rfl, 0, rfl⟩

theorem inv_complete {s : State} (h : s.Inv) (released : s.resetAsserted = false) : (complete s).Inv where
  snapshotSized := h.snapshotSized
  outcomeExcludesBusy := nofun
  heldInReset := heldInReset_of_released released
  cyclesLeft := rfl
  workingFollowsSnapshot := ⟨rfl, rfl, rfl⟩

theorem workingFollowsSnapshot_iff_of_busy {s : State} (busy : s.eng.phase = .busy) :
    WorkingFollowsSnapshot s ↔ s.eng.w = expand s.eng.nk s.eng.key ∧
      ∃ k, (s.eng.s, s.eng.round) = workingAfter s.eng.op s.eng.nk s.eng.w s.eng.blk k := by
  simp only [WorkingFollowsSnapshot, busy]

theorem cyclesLeft_iff_of_busy {s : State} (busy : s.eng.phase = .busy) : CyclesLeft s ↔ 0 < s.eng.remaining := by
  simp only [CyclesLeft, busy]

/-- A round of the pipeline in progress: one round more has been done (R115). -/
theorem inv_roundDone {s : State} (h : s.Inv) (busy : s.eng.phase = .busy) :
    State.Inv { s with eng := { s.eng with
      s := (pipelineRound s.eng.op s.eng.nk s.eng.w s.eng.s s.eng.round).1
      round := (pipelineRound s.eng.op s.eng.nk s.eng.w s.eng.s s.eng.round).2 } } where
  snapshotSized := h.snapshotSized
  outcomeExcludesBusy := h.outcomeExcludesBusy
  heldInReset := heldInReset_of_released (h.released_of_busy busy)
  cyclesLeft := h.cyclesLeft
  workingFollowsSnapshot := by
    obtain ⟨words, k, working⟩ := (workingFollowsSnapshot_iff_of_busy busy).mp h.workingFollowsSnapshot
    exact (workingFollowsSnapshot_iff_of_busy (by exact busy)).mpr ⟨words, k + 1, by rw [workingAfter, ← working]⟩

theorem inv_cyclePassed {s : State} (h : s.Inv) (busy : s.eng.phase = .busy) (left : 1 < s.eng.remaining) :
    State.Inv { s with eng := { s.eng with remaining := s.eng.remaining - 1 } } where
  snapshotSized := h.snapshotSized
  outcomeExcludesBusy := h.outcomeExcludesBusy
  heldInReset := heldInReset_of_released (h.released_of_busy busy)
  cyclesLeft := (cyclesLeft_iff_of_busy (by exact busy)).mpr (Nat.sub_pos_of_lt left)
  workingFollowsSnapshot := h.workingFollowsSnapshot

/-- All state at its reset value, the model's for the snapshot and the working state (R800, log 8). -/
theorem inv_of_reset_values {s : State} (key : s.key = State.reset.key) (din : s.din = State.reset.din)
    (dout : s.dout = State.reset.dout) (status : s.status = Status.reset) (eng : s.eng = Engine.reset) : s.Inv where
  snapshotSized := by rw [SnapshotSized, eng]; exact ⟨rfl, rfl⟩
  outcomeExcludesBusy := by rw [OutcomeExcludesBusy, eng]; nofun
  heldInReset := fun _ => ⟨key, din, dout, status, eng⟩
  cyclesLeft := by rw [CyclesLeft, eng]; rfl
  workingFollowsSnapshot := by rw [WorkingFollowsSnapshot, eng]; exact ⟨rfl, rfl, rfl⟩

theorem StepEffect.keeps_inv {e : Option Event} {s t : State} (effect : StepEffect e s t) (h : s.Inv) : t.Inv := by
  cases effect with
  | unchanged => exact h
  | responded o => exact h.of_eng_eq rfl h.outcomeExcludesBusy h.heldInReset
  | statusUpdated f released outcome =>
    exact h.of_eng_eq rfl (outcome h.outcomeExcludesBusy) (heldInReset_of_released released)
  | keyWritten j v released => exact h.of_eng_eq rfl h.outcomeExcludesBusy (heldInReset_of_released released)
  | dinWritten j v released => exact h.of_eng_eq rfl h.outcomeExcludesBusy (heldInReset_of_released released)
  | accepted op nk v released => exact inv_accept op nk released
  | completed busy => exact inv_complete h (h.released_of_busy busy)
  | roundDone busy => exact inv_roundDone h busy
  | cyclePassed busy left => exact inv_cyclePassed h busy left
  | reset level => exact inv_of_reset_values rfl rfl rfl rfl rfl
  | resetReleased => exact h.of_eng_eq rfl h.outcomeExcludesBusy (heldInReset_of_released rfl)

/-- Settles O40: each effect a step can have keeps the invariant. -/
theorem stepKeepsInvariant : Obligations.StepKeepsInvariant := fun _ _ inv step =>
  (step_effect step).keeps_inv (inv_dequeued inv _)

/-- Settles O39. -/
theorem invariantHoldsAtReset : Obligations.InvariantHoldsAtReset :=
  inv_of_reset_values rfl rfl rfl rfl rfl

/-- Settles O41: the registers at reset are zero at every index, the rest is read off State.reset. -/
theorem resetValues : Obligations.ResetValues :=
  ⟨rfl, fun j => Vector.getElem_replicate j.isLt,
    fun j => ⟨Vector.getElem_replicate j.isLt, Vector.getElem_replicate j.isLt⟩, rfl, rfl⟩

end Sys2Proof.Machine
end

section
/-! States that look alike to every host (R116, R18): each operation of the model keeps the relation, so every step
does. -/

namespace Sys2Proof.Machine

theorem ite_alike (c : Prop) [Decidable c] {s t s' t' : State} (pos : LookAlike s t) (neg : LookAlike s' t') :
    LookAlike (if c then s else s') (if c then t else t') := by
  split
  · exact pos
  · exact neg

section
variable {s t : State} (h : LookAlike s t)
include h

theorem dequeued_alike (rest : List Event) : LookAlike (dequeued rest s) (dequeued rest t) :=
  { h with schedule := rfl }

theorem respond_alike (o : Observation) : LookAlike (respond o s) (respond o t) :=
  { h with observed := congrArg (o :: ·) h.observed }

theorem writeKey_alike (j : Nat) (v : Word) : LookAlike (writeKey j v s) (writeKey j v t) :=
  { h with key := congrArg (·.setIfInBounds j v) h.key }

theorem writeDin_alike (j : Nat) (v : Word) : LookAlike (writeDin j v s) (writeDin j v t) :=
  { h with din := congrArg (·.setIfInBounds j v) h.din }

theorem updateStatus_alike (f : Status → Status) : LookAlike (updateStatus f s) (updateStatus f t) :=
  { h with status := congrArg f h.status }

theorem raise_alike (e : ErrorCondition) : LookAlike (raise e s) (raise e t) := by
  by_cases bus : e = .bus
  · rw [bus, raise_bus, raise_bus]
    exact respond_alike h _
  · rw [raise_recorded bus, raise_recorded bus]
    exact updateStatus_alike h _

theorem hostWrite_alike {f : State → State} (effect : LookAlike (f s) (f t)) :
    LookAlike (hostWrite f s) (hostWrite f t) := by
  rw [hostWrite, hostWrite, ← h.resetAsserted]
  exact ite_alike _ h effect

/-- The snapshot an acceptance takes is of KEY and DIN, which are alike (R703). -/
theorem accept_alike (op : Operation) (nk : KeySize) : LookAlike (accept op nk s) (accept op nk t) where
  key := h.key
  din := h.din
  dout := h.dout
  status := h.status
  phase := rfl
  remaining := rfl
  snapshot := fun _ => ⟨rfl, rfl, by simp [keyOperand, keyByte, h.key], by simp [blockOperand, dinByte, h.din]⟩
  resetAsserted := h.resetAsserted
  schedule := h.schedule
  observed := h.observed

/-- R700 steps 5 and 6 test the declared lengths, and STATUS, which is alike. -/
theorem checkAndAccept_alike (op : Operation) (kl : BitVec 6) (bl : BitVec 5) :
    LookAlike (checkAndAccept op kl bl s) (checkAndAccept op kl bl t) := by
  simp only [checkAndAccept]
  generalize keySizeOf kl = size
  have keyChecked := ite_alike size.isNone (raise_alike h .keyLen) h
  have checked := ite_alike (blockLengthOk bl) keyChecked (raise_alike keyChecked .blkLen)
  rw [← checked.status]
  refine ite_alike _ checked ?_
  cases size with
  | none => exact checked
  | some nk => exact accept_alike checked op nk

theorem issueOperation_alike (op : Operation) (kl : BitVec 6) (bl : BitVec 5) :
    LookAlike (issueOperation op kl bl s) (issueOperation op kl bl t) := by
  rw [issueOperation, issueOperation, ← h.phase]
  exact ite_alike _ (raise_alike h _) (checkAndAccept_alike (updateStatus_alike h _) op kl bl)

theorem issueIllegal_alike : LookAlike (issueIllegal s) (issueIllegal t) := by
  rw [issueIllegal, issueIllegal, ← h.phase]
  exact ite_alike _ (raise_alike h _) (raise_alike (updateStatus_alike h _) _)

theorem processCommand_alike (v : Word) : LookAlike (processCommand v s) (processCommand v t) := by
  simp only [processCommand, ← h.phase]
  exact ite_alike _ h <| ite_alike _ (raise_alike h _) <|
    ite_alike _ (raise_alike (updateStatus_alike h _) _) (checkAndAccept_alike (updateStatus_alike h _) _ _ _)

/-- A read returns a register, and STATUS.BUSY is the phase: all of them are alike (R18, R653). -/
theorem nextState_alike (i : Instr) : LookAlike (nextState i s) (nextState i t) := by
  cases i with
  | nop | wrDout | wrRsvd => exact h
  | cipher kl bl => exact hostWrite_alike h (issueOperation_alike h _ kl bl)
  | decipher kl bl => exact hostWrite_alike h (issueOperation_alike h _ kl bl)
  | illegal => exact hostWrite_alike h (issueIllegal_alike h)
  | wrCtrl v => exact hostWrite_alike h (processCommand_alike h v)
  | wrStatus v => exact hostWrite_alike h (updateStatus_alike h _)
  | wrKeyLow j v => exact hostWrite_alike h (writeKey_alike h _ v)
  | wrKeyHigh j v => exact hostWrite_alike h (writeKey_alike h _ v)
  | wrDin j v => exact hostWrite_alike h (writeDin_alike h _ v)
  | rdCtrl | rdRsvd | busErrMisaligned | busErrNarrow => exact respond_alike h _
  | rdStatus => simpa only [nextState, h.phase, h.status] using respond_alike h _
  | rdKeyLow j => simpa only [nextState, h.key] using respond_alike h _
  | rdKeyHigh j => simpa only [nextState, h.key] using respond_alike h _
  | rdDin j => simpa only [nextState, h.din] using respond_alike h _
  | rdDout j => simpa only [nextState, h.dout] using respond_alike h _

/-- While BUSY the snapshots are alike (R111), and so are the results computed from them. -/
theorem complete_alike (busy : s.eng.phase = .busy) : LookAlike (complete s) (complete t) := by
  obtain ⟨op, nk, key, blk⟩ := h.snapshot busy
  exact { h with
    dout := by simp [op, nk, key, blk]
    status := by simp [h.status]
    phase := rfl
    remaining := rfl
    snapshot := nofun }

theorem completionStep_alike : LookAlike (completionStep s) (completionStep t) := by
  rw [completionStep, completionStep, ← h.phase]
  split
  case isTrue busy => exact complete_alike h busy
  case isFalse => exact h

/-- A round changes the working state only, on either side (R116). -/
theorem roundStep_alike : LookAlike (roundStep s) (roundStep t) := by
  rw [roundStep, roundStep, ← h.phase]
  exact ite_alike _ { h with } h

theorem clockStep_alike : LookAlike (clockStep s) (clockStep t) := by
  rw [clockStep, clockStep, ← h.phase, ← h.remaining]
  split
  case isTrue busy =>
    split
    · exact complete_alike h busy
    · exact { h with remaining := rfl }
  case isFalse => exact h

theorem resetStep_alike : LookAlike (resetStep s) (resetStep t) :=
  ⟨rfl, rfl, rfl, rfl, rfl, rfl, nofun, h.resetAsserted, h.schedule, h.observed⟩

theorem resetInputStep_alike (asserted : Bool) : LookAlike (resetInputStep asserted s) (resetInputStep asserted t) := by
  cases asserted with
  | true => exact { resetStep_alike h with resetAsserted := rfl }
  | false => exact { h with resetAsserted := rfl }

theorem runAccess_alike (td : BitVec 16) (data : Word) : OutcomesAlike (runAccess td data s) (runAccess td data t) := by
  unfold runAccess
  cases decodeTransaction td data with
  | error e => exact rfl
  | ok i =>
    show OutcomesAlike (exec i s) (exec i t)
    rw [exec_eq_next, exec_eq_next]
    exact nextState_alike h i

theorem takeEvent_alike (e : Event) : OutcomesAlike (takeEvent e s) (takeEvent e t) := by
  cases e with
  | access td data => exact runAccess_alike h td data
  | completion => exact completionStep_alike h
  | round => exact roundStep_alike h
  | clock => exact clockStep_alike h
  | reset => exact resetStep_alike h
  | resetInput asserted => exact resetInputStep_alike h asserted

end

/-- Settles O38: the event at the head of the two equal schedules keeps the states alike. -/
theorem internalStateIsNotObservable : Obligations.InternalStateIsNotObservable := fun s t h => by
  rw [step, step, ← h.schedule]
  cases s.schedule with
  | nil => exact completionStep_alike h
  | cons e rest => exact takeEvent_alike (dequeued_alike h rest) e

end Sys2Proof.Machine
end

section
/-! What a step can change: the phase, KEY and DIN, DOUT, and the snapshot, each by the effects of a step. -/

namespace Sys2Proof.Machine

/-- R102: BUSY is bit 0 of STATUS. -/
theorem statusWord_bit_zero (phase : Phase) (st : Status) :
    (statusWord phase st).getLsbD 0 = true ↔ phase = .busy := by
  have bit : (statusWord phase st).getLsbD 0 = phase.busyBit := by
    rw [statusWord, BitVec.getLsbD_append]
    simp
  rw [bit]
  cases phase <;> decide

section
variable {e : Option Event} {s t : State} (effect : StepEffect e s t)
include effect

theorem StepEffect.accepted_of_becomes_busy (idle : s.eng.phase = .idle) (busy : t.eng.phase = .busy) :
    ∃ v, e = some (.access 0x8200 v) ∧ AcceptableCommand v := by
  cases effect with
  | accepted _ _ v _ _ event legal => exact ⟨v, event, legal⟩
  | completed | reset => cases busy
  | unchanged | responded | statusUpdated | keyWritten | dinWritten | roundDone | cyclePassed | resetReleased =>
    cases idle.symm.trans busy

theorem StepEffect.completed_or_reset_of_becomes_idle (busy : s.eng.phase = .busy) (idle : t.eng.phase = .idle) :
    t.status.done = true ∨ (t.dout = State.reset.dout ∧ t.status = Status.reset ∧
      (e = some .reset ∨ e = some (.resetInput true))) := by
  cases effect with
  | completed => exact .inl rfl
  | reset _ event => exact .inr ⟨rfl, rfl, event⟩
  | accepted => cases idle
  | unchanged | responded | statusUpdated | keyWritten | dinWritten | roundDone | cyclePassed | resetReleased =>
    cases idle.symm.trans busy

theorem StepEffect.written_or_reset_of_operands_ne (changed : t.key ≠ s.key ∨ t.din ≠ s.din) :
    (e = some .reset ∨ e = some (.resetInput true)) ∨ ∃ td v, e = some (.access td v) ∧
      ((t.din = s.din ∧ ∃ j : Fin 8, td = 0x8210 + 4 * BitVec.ofNat 16 j.val) ∨
       (t.key = s.key ∧ ∃ j : Fin 4, td = 0x8230 + 4 * BitVec.ofNat 16 j.val)) := by
  cases effect with
  | keyWritten j v _ event => exact .inr ⟨_, v, event, .inl ⟨rfl, j, rfl⟩⟩
  | dinWritten j v _ event => exact .inr ⟨_, v, event, .inr ⟨rfl, j, rfl⟩⟩
  | reset _ event => exact .inl event
  | unchanged | responded | statusUpdated | accepted | completed | roundDone | cyclePassed | resetReleased =>
    exact (changed.elim (· rfl) (· rfl)).elim

theorem StepEffect.completed_or_reset_of_dout_ne (changed : t.dout ≠ s.dout) :
    (s.eng.phase = .busy ∧ t.eng.phase = .idle ∧ t.status.done = true) ∨
    (t.dout = State.reset.dout ∧ (e = some .reset ∨ e = some (.resetInput true))) := by
  cases effect with
  | completed busy => exact .inl ⟨busy, rfl, rfl⟩
  | reset _ event => exact .inr ⟨rfl, event⟩
  | unchanged | responded | statusUpdated | keyWritten | dinWritten | accepted | roundDone | cyclePassed
  | resetReleased => exact absurd rfl changed

theorem StepEffect.snapshot_eq_of_stays_busy (before : s.eng.phase = .busy) (after : t.eng.phase = .busy) :
    t.eng.op = s.eng.op ∧ t.eng.nk = s.eng.nk ∧ t.eng.key = s.eng.key ∧ t.eng.blk = s.eng.blk := by
  cases effect with
  | accepted _ _ _ _ idle => cases idle.symm.trans before
  | completed | reset => cases after
  | unchanged | responded | statusUpdated | keyWritten | dinWritten | roundDone | cyclePassed | resetReleased =>
    exact ⟨rfl, rfl, rfl, rfl⟩

end

/-- An event that resets the engine, as the head of the schedule. -/
theorem schedule_of_head?_reset {es : List Event}
    (h : es.head? = some .reset ∨ es.head? = some (.resetInput true)) :
    ∃ rest, es = .reset :: rest ∨ es = .resetInput true :: rest := by
  simpa only [List.head?_eq_some_iff, ← exists_or] using h

/-- Settles O29: the phase changes by acceptance, completion and reset only, among the effects of a step. -/
theorem phaseChangesAsStated : Obligations.PhaseChangesAsStated := by
  refine ⟨rfl, fun s => statusWord_bit_zero _ _, fun s t step idle busy => ?_, fun s t step busy idle => ?_⟩
  · obtain ⟨v, event, legal⟩ := (step_effect step).accepted_of_becomes_busy idle busy
    obtain ⟨rest, schedule⟩ := List.head?_eq_some_iff.mp event
    exact ⟨v, rest, schedule, legal⟩
  · obtain done | ⟨dout, status, event⟩ := (step_effect step).completed_or_reset_of_becomes_idle busy idle
    · exact .inl done
    · exact .inr ⟨dout, status, schedule_of_head?_reset event⟩

/-- Settles O30: the operand writes and reset are the effects that touch KEY or DIN. -/
theorem operandsChangeOnlyByHostOrReset : Obligations.OperandsChangeOnlyByHostOrReset := fun s t step changed => by
  obtain event | ⟨td, v, event, written⟩ := (step_effect step).written_or_reset_of_operands_ne changed
  · exact .inl (schedule_of_head?_reset event)
  · obtain ⟨rest, schedule⟩ := List.head?_eq_some_iff.mp event
    exact .inr ⟨td, v, rest, schedule, written⟩

/-- Settles O31: completion and reset are the effects that touch DOUT. -/
theorem resultChangesOnlyAtCompletionOrReset : Obligations.ResultChangesOnlyAtCompletionOrReset :=
  fun _ _ step changed => (step_effect step).completed_or_reset_of_dout_ne changed |>.imp id
    fun ⟨dout, event⟩ => ⟨dout, schedule_of_head?_reset event⟩

/-- Settles O33: acceptance alone takes a snapshot, and only an idle engine accepts. -/
theorem snapshotIsImmutableWhileBusy : Obligations.SnapshotIsImmutableWhileBusy := fun _ _ step before after =>
  (step_effect step).snapshot_eq_of_stays_busy before after

end Sys2Proof.Machine
end

section
/-! The pipelines round by round (R113-R115, R602, R603, R605): both operations as one shape, a start, middle rounds in
the operation's order and a final round, and the working state after each round of it. -/

namespace Sys2Proof.Machine

/-- The indices of the middle rounds, in the order the operation takes them (R602, R603, R605). -/
def middleRoundsOf (op : Operation) (nk : KeySize) : List Nat :=
  match op with
  | .cipher => middleRounds nk.rounds
  | .decipher => (middleRounds nk.rounds).reverse

/-- A middle round of the operation (R602, R603). -/
def middleRoundOf (op : Operation) (w : List Quad) : Matrix → Nat → Matrix :=
  match op with
  | .cipher => cipherMiddleRound w
  | .decipher => decipherMiddleRound w

/-- The final round of the operation (R602, R603, R606). -/
def finalRoundOf (op : Operation) (nk : KeySize) (w : List Quad) (s : Matrix) : Matrix :=
  match op with
  | .cipher => cipherFinalRound w s nk.rounds
  | .decipher => decipherFinalRound w s

/-- The round index once k of the Nr rounds are done (R605). -/
def roundIndexAfter (op : Operation) (nk : KeySize) (k : Nat) : Nat :=
  match op with
  | .cipher => k
  | .decipher => nk.rounds - k

theorem runPipeline_eq (op : Operation) (nk : KeySize) (blk key : List Byte) :
    runPipeline op nk blk key = storeState (finalRoundOf op nk (expand nk key)
      ((middleRoundsOf op nk).foldl (middleRoundOf op (expand nk key)) (pipelineStart op nk (expand nk key) blk))) := by
  cases op <;> rfl

theorem length_middleRoundsOf (op : Operation) (nk : KeySize) : (middleRoundsOf op nk).length = nk.rounds - 1 := by
  cases op <;> simp [middleRoundsOf, middleRounds]

theorem getElem_middleRoundsOf {op : Operation} {nk : KeySize} {k : Nat} (h : k < (middleRoundsOf op nk).length) :
    (middleRoundsOf op nk)[k] = roundIndexAfter op nk (k + 1) := by
  have inRange := length_middleRoundsOf op nk ▸ h
  cases op with
  | cipher => simp [middleRoundsOf, middleRounds, roundIndexAfter]
  | decipher =>
    simp only [middleRoundsOf, middleRounds, roundIndexAfter, List.getElem_reverse, List.getElem_map,
      List.getElem_range, List.length_map, List.length_range]
    omega

theorem pipelineRound_middle (op : Operation) {nk : KeySize} (w : List Quad) (s : Matrix) {k : Nat}
    (h : k + 1 < nk.rounds) :
    pipelineRound op nk w s (roundIndexAfter op nk k) =
      (middleRoundOf op w s (roundIndexAfter op nk (k + 1)), roundIndexAfter op nk (k + 1)) := by
  cases op with
  | cipher => simp [pipelineRound, roundIndexAfter, middleRoundOf, h]
  | decipher =>
    have notLast : 1 < nk.rounds - k := by omega
    simp [pipelineRound, roundIndexAfter, middleRoundOf, notLast, Nat.sub_sub]

theorem pipelineRound_final (op : Operation) {nk : KeySize} (w : List Quad) (s : Matrix) {k : Nat}
    (h : k + 1 = nk.rounds) :
    pipelineRound op nk w s (roundIndexAfter op nk k) = (finalRoundOf op nk w s, lastRound op nk) := by
  cases op with
  | cipher => simp [pipelineRound, roundIndexAfter, finalRoundOf, lastRound, h]
  | decipher => simp [pipelineRound, roundIndexAfter, finalRoundOf, lastRound, ← h]

theorem pipelineRound_lastRound (op : Operation) (nk : KeySize) (w : List Quad) (s : Matrix) :
    pipelineRound op nk w s (lastRound op nk) = (s, lastRound op nk) := by
  cases op <;> simp [pipelineRound, lastRound]

/-- Before the final round, the working state is the fold of the middle rounds done so far. -/
theorem workingAfter_middle (op : Operation) {nk : KeySize} (w : List Quad) (blk : List Byte) {k : Nat}
    (h : k < nk.rounds) :
    workingAfter op nk w blk k =
      (((middleRoundsOf op nk).take k).foldl (middleRoundOf op w) (pipelineStart op nk w blk),
        roundIndexAfter op nk k) := by
  induction k with
  | zero => cases op <;> rfl
  | succ k ih =>
    have inRange : k < (middleRoundsOf op nk).length := by rw [length_middleRoundsOf]; omega
    rw [workingAfter, ih (by omega), pipelineRound_middle op w _ h, ← List.take_concat_get' _ k inRange,
      List.foldl_append, getElem_middleRoundsOf inRange]
    rfl

/-- From the final round on, the working state is the pipeline's last State. -/
theorem workingAfter_final (op : Operation) {nk : KeySize} (w : List Quad) (blk : List Byte) {k : Nat}
    (h : nk.rounds ≤ k) :
    workingAfter op nk w blk k =
      (finalRoundOf op nk w ((middleRoundsOf op nk).foldl (middleRoundOf op w) (pipelineStart op nk w blk)),
        lastRound op nk) := by
  induction k, h using Nat.le_induction with
  | base =>
    obtain ⟨k, rounds⟩ : ∃ k, k + 1 = nk.rounds := by cases nk <;> exact ⟨_, rfl⟩
    have all : (middleRoundsOf op nk).take k = middleRoundsOf op nk :=
      List.take_of_length_le (by rw [length_middleRoundsOf]; omega)
    rw [← rounds, workingAfter, workingAfter_middle op w blk (by omega), pipelineRound_final op w _ rounds, all]
  | succ k _ ih => rw [workingAfter, ih, pipelineRound_lastRound]

theorem roundIndexAfter_ne_lastRound (op : Operation) {nk : KeySize} {k : Nat} (h : k < nk.rounds) :
    roundIndexAfter op nk k ≠ lastRound op nk := by
  cases op with
  | cipher => exact Nat.ne_of_lt h
  | decipher => exact Nat.sub_ne_zero_of_lt h

/-- Settles O37: at the last round index all rounds are done, and their fold is the pipeline. -/
theorem roundByRoundReachesTheResult : Obligations.RoundByRoundReachesTheResult := fun s follows busy last => by
  obtain ⟨words, k, working⟩ := (workingFollowsSnapshot_iff_of_busy busy).mp follows
  have finished : s.eng.nk.rounds ≤ k := by
    by_contra unfinished
    have unfinished := Nat.lt_of_not_le unfinished
    obtain ⟨-, index⟩ := Prod.mk.inj (working.trans (workingAfter_middle _ _ _ unfinished))
    exact roundIndexAfter_ne_lastRound _ unfinished (index.symm.trans last)
  obtain ⟨state, -⟩ := Prod.mk.inj (working.trans (workingAfter_final _ _ _ finished))
  rw [runPipeline_eq, state, words]

end Sys2Proof.Machine
end

section
/-! A transaction's descriptor (R301): its fields, the offsets it can name, and its first row as the row of the
instruction it decodes to (R311). -/

namespace Sys2Proof

section
variable (write : Bool) (size : BitVec 2) (off : BitVec 8)

theorem size_descriptor : (descriptor write size off).extractLsb' 8 2 = size := by
  have aboveOffset := BitVec.extractLsb'_append_eq_of_le (xhi := BitVec.ofBool write ++ 0#5 ++ size) (xlo := off)
    (start := 8) (len := 2) (Nat.le_refl 8)
  have low := BitVec.extractLsb'_append_eq_of_add_le (xhi := BitVec.ofBool write ++ 0#5) (xlo := size)
    (start := 0) (len := 2) (Nat.le_refl 2)
  exact aboveOffset.trans (low.trans BitVec.extractLsb'_eq_self)

theorem reservedBits_descriptor : (descriptor write size off).extractLsb' 10 5 = 0 := by
  have aboveOffset := BitVec.extractLsb'_append_eq_of_le (xhi := BitVec.ofBool write ++ 0#5 ++ size) (xlo := off)
    (start := 10) (len := 5) (by decide)
  have aboveSize := BitVec.extractLsb'_append_eq_of_le (xhi := BitVec.ofBool write ++ 0#5) (xlo := size)
    (start := 2) (len := 5) (Nat.le_refl 2)
  have low := BitVec.extractLsb'_append_eq_of_add_le (xhi := BitVec.ofBool write) (xlo := 0#5)
    (start := 0) (len := 5) (Nat.le_refl 5)
  exact aboveOffset.trans (aboveSize.trans (low.trans BitVec.extractLsb'_eq_self))

theorem spellsTransaction_descriptor : Machine.SpellsTransaction (descriptor write size off) ↔ size ≠ 3 := by
  rw [Machine.SpellsTransaction, size_descriptor, reservedBits_descriptor]
  exact and_iff_right rfl

end

/-- An aligned offset is its word index OFF[7:2]. -/
theorem aligned_eq_append {off : BitVec 8} (aligned : off.toNat % 4 = 0) : off = off.extractLsb' 2 6 ++ 0#2 := by
  have low : off.extractLsb' 0 2 = 0#2 := BitVec.eq_of_toNat_eq (by simpa using aligned)
  have parts := BitVec.extractLsb'_append_extractLsb'_eq_extractLsb' (x := off) (start₂ := 2) (start₁ := 0)
    (len₁ := 2) (len₂ := 6) rfl
  rw [low] at parts
  exact (parts.trans BitVec.extractLsb'_eq_self).symm

/-- The address map (R201) over word indices. -/
theorem wordIndex_cases : ∀ index : BitVec 6, reservedIndex index = true ∨
    index ++ 0#2 = 0x00#8 ∨ index ++ 0#2 = 0x04#8 ∨
    ∃ first ∈ [0x10#8, 0x20#8, 0x30#8, 0x40#8], ∃ j, index ++ 0#2 = registerOffset first j := by
  decide

/-- The misaligned row is SIZE = 2, the narrow one SIZE = 0 or 1, with the reserved bits zero (R663). -/
theorem rowBusErrMisaligned_hits (td : BitVec 16) :
    rowBusErrMisaligned.hits td = true ↔ td.extractLsb' 10 5 = 0 ∧ td.extractLsb' 8 2 = 2 := by
  simp only [OpcodeRow.hits, rowBusErrMisaligned, beq_iff_eq, bits_ext_iff, BitVec.getLsbD_and,
    BitVec.getLsbD_extractLsb']
  simp [Nat.forall_lt_succ_right, forall_le_one]
  tauto

theorem rowBusErrNarrow_hits (td : BitVec 16) :
    rowBusErrNarrow.hits td = true ↔
      td.extractLsb' 10 5 = 0 ∧ (td.extractLsb' 8 2 = 0 ∨ td.extractLsb' 8 2 = 1) := by
  simp only [OpcodeRow.hits, rowBusErrNarrow, beq_iff_eq, bits_ext_iff, BitVec.getLsbD_and,
    BitVec.getLsbD_extractLsb']
  simp [Nat.forall_lt_succ_right, forall_le_one]
  cases td[8] <;> simp <;> tauto

/-- What the first fifteen rows leave of the descriptors that spell a transaction is the narrow row's. -/
theorem rowBusErrNarrow_hits_of_spells {td : BitVec 16} (spells : Machine.SpellsTransaction td)
    (notHit : ¬ rowBusErrMisaligned.hits td = true) : rowBusErrNarrow.hits td = true := by
  obtain ⟨reserved, size⟩ := spells
  rw [rowBusErrMisaligned_hits, not_and] at notHit
  have sizes : ∀ x : BitVec 2, x ≠ 2 → x ≠ 3 → x = 0 ∨ x = 1 := by decide
  exact (rowBusErrNarrow_hits td).mpr ⟨reserved, sizes _ (notHit reserved) size⟩

theorem decodeTransaction_of_spells {td : BitVec 16} (spells : Machine.SpellsTransaction td) (data : Word) :
    decodeTransaction td data = .ok (decodeRow td data) := by
  rw [decodeTransaction, if_neg (not_not.mpr spells.1), if_neg spells.2]

theorem find?_cons_eq_ite {α : Type} (p : α → Bool) (a : α) (l : List α) :
    (a :: l).find? p = if p a = true then some a else l.find? p := by
  cases hit : p a <;> simp [hit]

/-- The decoder takes the first matching row (R311): both sides test the rows in the same order. -/
theorem firstRow_eq_rowOf_decodeRow {td : BitVec 16} (spells : Machine.SpellsTransaction td) (data : Word) :
    firstRow (.transaction td data) = rowOf (decodeRow td data) := by
  simp only [firstRow, transactionRows, List.cons_append, List.nil_append, decodeRow, apply_ite rowOf]
  iterate 15
    rw [find?_cons_eq_ite, apply_ite (Prod.mk none)]
    refine ite_congr rfl (fun _ => rfl) fun notHit => ?_
  rw [find?_cons_eq_ite, if_pos (rowBusErrNarrow_hits_of_spells spells notHit)]
  rfl

theorem firstRow_narrow (write half : Bool) (off : BitVec 8) (data : Word) :
    firstRow (.transaction (descriptor write (if half then 1 else 0) off) data) = (none, some rowBusErrNarrow) :=
  match write with
  | true => Laws.RowOf.busErrNarrow (some data) half off rfl
  | false => Laws.RowOf.busErrNarrow none half off rfl

theorem firstRow_misaligned (write : Bool) {off : BitVec 8} (misaligned : misalignedOffset off = true) (data : Word) :
    firstRow (.transaction (descriptor write 2 off) data) = (none, some rowBusErrMisaligned) :=
  match write with
  | true => Laws.RowOf.busErrMisaligned (some data) off misaligned
  | false => Laws.RowOf.busErrMisaligned none off misaligned

/-- Every bus error access of R203 and R204 lies in a BUSERR row. -/
theorem firstRow_busErr {size : BitVec 2} {off : BitVec 8}
    (bad : size = 0 ∨ size = 1 ∨ (size = 2 ∧ off.extractLsb' 0 2 ≠ 0)) (write : Bool) (data : Word) :
    ∃ row, firstRow (.transaction (descriptor write size off) data) = (none, some row) ∧ row.mnemonic = "BUSERR" := by
  obtain rfl | rfl | ⟨rfl, misaligned⟩ := bad
  · exact ⟨_, firstRow_narrow write false off data, rfl⟩
  · exact ⟨_, firstRow_narrow write true off data, rfl⟩
  · exact ⟨_, firstRow_misaligned write (bne_iff_ne.mpr misaligned) data, rfl⟩

end Sys2Proof
end

section
/-! The register window at the port (spec/20_memory.md R201-R204, R211): the step of a transaction, what a row without
operands of its own does, and what each offset answers. -/

namespace Sys2Proof.Machine

section
variable {s : State} {td : BitVec 16} {data : Word} {rest : List Event}
  (schedule : s.schedule = .access td data :: rest)
include schedule

theorem step_access : step s = runAccess td data (dequeued rest s) := by
  rw [step, schedule]
  rfl

theorem step_of_decode {i : Instr} (decoded : decodeTransaction td data = .ok i) :
    step s = exec i (dequeued rest s) := by
  rw [step_access schedule, runAccess, decoded]

theorem step_eq_nextState {i : Instr} (decoded : decodeTransaction td data = .ok i) :
    step s = .next (nextState i (dequeued rest s)) :=
  (step_of_decode schedule decoded).trans (exec_eq_next i _)

/-- A step runs an instruction of the descriptor's first row. -/
theorem step_of_firstRow {row : OpcodeRow 16} (spells : SpellsTransaction td)
    (first : firstRow (.transaction td data) = (none, some row)) :
    ∃ i, rowOf i = (none, some row) ∧ step s = .next (nextState i (dequeued rest s)) :=
  ⟨decodeRow td data, (firstRow_eq_rowOf_decodeRow spells data).symm.trans first,
    step_eq_nextState schedule (decodeTransaction_of_spells spells data)⟩

end

/-- The rows whose operands play no part in what they do (R661, R662, R663). -/
theorem nextState_of_row {i : Instr} {row : OpcodeRow 16} (h : rowOf i = (none, some row)) (s : State) :
    (row.mnemonic = "RD.RSVD" → nextState i s = respond (.value 0) s) ∧
    (row.mnemonic = "WR.RSVD" → nextState i s = s) ∧
    (row.mnemonic = "BUSERR" → nextState i s = respond .busError s) := by
  have other {m : String} {p : Prop} (ne : row.mnemonic ≠ m) : row.mnemonic = m → p := fun eq => absurd eq ne
  cases i with
  | rdRsvd => cases h; exact ⟨fun _ => rfl, other (by decide), other (by decide)⟩
  | wrRsvd => cases h; exact ⟨other (by decide), fun _ => rfl, other (by decide)⟩
  | busErrMisaligned | busErrNarrow => cases h; exact ⟨other (by decide), other (by decide), fun _ => rfl⟩
  | nop | cipher | decipher | illegal => cases h
  | _ => cases h; exact ⟨other (by decide), other (by decide), other (by decide)⟩

theorem reservedOffset_append_iff : ∀ index : BitVec 6, ReservedOffset (index ++ 0#2) ↔ reservedIndex index = true := by
  unfold ReservedOffset
  decide

theorem windowValue_reserved {off : BitVec 8} (reserved : ReservedOffset off) (s : State) : windowValue s off = 0 := by
  obtain ⟨-, low | low | high⟩ := reserved
  · simp [windowValue, low]
  · simp [windowValue, low]
  · have notCtrl : off.toNat ≠ 0x00 := by omega
    have notStatus : off.toNat ≠ 0x04 := by omega
    have notKey : ¬ (0x10 ≤ off.toNat ∧ off.toNat ≤ 0x2C) := by omega
    have notDin : ¬ (0x30 ≤ off.toNat ∧ off.toNat ≤ 0x3C) := by omega
    have notDout : ¬ (0x40 ≤ off.toNat ∧ off.toNat ≤ 0x4C) := by omega
    simp only [windowValue, notCtrl, notStatus, notKey, notDin, notDout, if_false]

/-- A 32-bit read at the offset answers what the address map puts there. -/
def ReadsWindow (off : BitVec 8) : Prop :=
  ∀ data, ∃ i, decodeTransaction (descriptor false 2 off) data = .ok i ∧
    ∀ s, nextState i s = respond (.value (windowValue s off)) s

/-- Register j of KEY0..3, KEY4..7, DIN and DOUT: its descriptor and the address map, evaluated at each offset. -/
theorem readsWindow_register {first : BitVec 8} (array : first ∈ [0x10#8, 0x20#8, 0x30#8, 0x40#8]) (j : Fin 4) :
    ReadsWindow (registerOffset first j) := by
  simp only [List.mem_cons, List.not_mem_nil, or_false] at array
  obtain rfl | rfl | rfl | rfl := array <;> fin_cases j <;> exact fun _ => ⟨_, rfl, fun _ => rfl⟩

/-- A reserved read (R661): the words of the RD.RSVD row, and zero in the address map. -/
theorem readsWindow_reserved {index : BitVec 6} (reserved : reservedIndex index = true) :
    ReadsWindow (index ++ 0#2) := fun data => by
  have spells : SpellsTransaction (descriptor false 2 (index ++ 0#2)) :=
    (spellsTransaction_descriptor ..).mpr (by decide)
  have row := (firstRow_eq_rowOf_decodeRow spells data).symm.trans (Laws.RowOf.rdRsvd index reserved)
  refine ⟨_, decodeTransaction_of_spells spells data, fun s => ?_⟩
  obtain ⟨read, -, -⟩ := nextState_of_row row s
  rw [windowValue_reserved ((reservedOffset_append_iff index).mpr reserved), read rfl]

/-- The whole window (R201, R650). -/
theorem readsWindow_of_aligned {off : BitVec 8} (aligned : off.toNat % 4 = 0) : ReadsWindow off := by
  rw [aligned_eq_append aligned]
  obtain reserved | ctrl | status | ⟨first, array, j, register⟩ := wordIndex_cases (off.extractLsb' 2 6)
  · exact readsWindow_reserved reserved
  · rw [ctrl]
    exact fun _ => ⟨.rdCtrl, rfl, fun _ => rfl⟩
  · rw [status]
    exact fun _ => ⟨.rdStatus, rfl, fun _ => rfl⟩
  · rw [register]
    exact readsWindow_register array j

/-- A reserved offset takes a write without effect (R662). -/
theorem step_reservedWrite {s : State} {off : BitVec 8} {data : Word} {rest : List Event}
    (reserved : ReservedOffset off) (schedule : s.schedule = .access (descriptor true 2 off) data :: rest) :
    step s = .next (dequeued rest s) := by
  have offset := aligned_eq_append reserved.1
  rw [offset] at reserved schedule
  have index := (reservedOffset_append_iff _).mp reserved
  obtain ⟨i, row, next⟩ := step_of_firstRow schedule ((spellsTransaction_descriptor ..).mpr (by decide))
    (Laws.RowOf.wrRsvd _ data index)
  obtain ⟨-, write, -⟩ := nextState_of_row row (dequeued rest s)
  rw [next, write rfl]

/-- DOUT takes a write without effect (R660). -/
theorem step_doutWrite {s : State} {off : BitVec 8} {data : Word} {rest : List Event}
    (dout : off ∈ [0x40#8, 0x44#8, 0x48#8, 0x4C#8])
    (schedule : s.schedule = .access (descriptor true 2 off) data :: rest) :
    step s = .next (dequeued rest s) := by
  simp only [List.mem_cons, List.not_mem_nil, or_false] at dout
  obtain rfl | rfl | rfl | rfl := dout
  · exact step_eq_nextState (i := .wrDout 0 data) schedule rfl
  · exact step_eq_nextState (i := .wrDout 1 data) schedule rfl
  · exact step_eq_nextState (i := .wrDout 2 data) schedule rfl
  · exact step_eq_nextState (i := .wrDout 3 data) schedule rfl

/-- No effect adds to the schedule, takes from it, or lets the host observe more than one thing. -/
theorem StepEffect.schedule_eq_and_observed {e : Option Event} {s t : State} (effect : StepEffect e s t) :
    t.schedule = s.schedule ∧ ∃ new, t.observed = new ++ s.observed ∧ new.length ≤ 1 := by
  cases effect with
  | responded o => exact ⟨rfl, [o], rfl, Nat.le_refl 1⟩
  | unchanged | statusUpdated | keyWritten | dinWritten | accepted | completed | roundDone | cyclePassed | reset
  | resetReleased => exact ⟨rfl, [], rfl, Nat.zero_le 1⟩

/-- Settles O6: the step of a transaction whose descriptor decodes. -/
theorem stepRunsDecodedInstruction : Obligations.StepRunsDecodedInstruction :=
  fun _ _ _ _ _ schedule decoded => step_of_decode schedule decoded

/-- Settles O9: an effect of a step works on the state with the first event taken from its schedule. -/
theorem stepTakesOneEvent : Obligations.StepTakesOneEvent := fun _ _ step =>
  (step_effect step).schedule_eq_and_observed

/-- Settles O19: at every aligned offset the decoder names the read of what the address map puts there. -/
theorem windowReadFollowsAddressMap : Obligations.WindowReadFollowsAddressMap :=
  fun s _ data rest aligned schedule => by
    obtain ⟨i, decoded, value⟩ := readsWindow_of_aligned aligned data
    exact (step_eq_nextState schedule decoded).trans (congrArg _ (value (dequeued rest s)))

/-- Settles O23: the address map is zero at a reserved offset, and the rows of these writes have no effect. -/
theorem reservedAndReadOnlyOffsets : Obligations.ReservedAndReadOnlyOffsets := by
  refine fun s off data rest => ⟨fun reserved schedule => ?_, fun offset schedule => ?_, fun _ => rfl, fun _ => rfl⟩
  · have read := windowReadFollowsAddressMap s off data rest reserved.1 schedule
    rwa [windowValue_reserved reserved] at read
  · exact offset.elim (step_reservedWrite · schedule) (step_doutWrite · schedule)

/-- Settles O24: these accesses lie in a BUSERR row, and both such rows only respond with the bus error. -/
theorem busErrorsChangeNoState : Obligations.BusErrorsChangeNoState := by
  refine ⟨fun s write size off data rest bad schedule => ?_, fun _ _ _ _ => ⟨rfl, rfl⟩⟩
  have size_ne : size ≠ 3 := by rintro rfl; simp at bad
  obtain ⟨row, first, busErr⟩ := firstRow_busErr bad write data
  obtain ⟨i, ofRow, next⟩ := step_of_firstRow schedule ((spellsTransaction_descriptor ..).mpr size_ne) first
  obtain ⟨-, -, response⟩ := nextState_of_row ofRow (dequeued rest s)
  rw [next, response busErr]
  rfl

end Sys2Proof.Machine
end

section
/-! The encodings as concatenations of fields (R301, R303): each field read back, and a word from its fields. -/

namespace Sys2Proof

section
variable {hiWidth loWidth : Nat} (hi : BitVec hiWidth) (lo : BitVec loWidth)

theorem extractLsb'_append_low : (hi ++ lo).extractLsb' 0 loWidth = lo :=
  (BitVec.extractLsb'_append_eq_of_add_le (Nat.zero_add loWidth).le).trans BitVec.extractLsb'_eq_self

theorem extractLsb'_append_above {start len : Nat} :
    (hi ++ lo).extractLsb' (start + loWidth) len = hi.extractLsb' start len := by
  rw [BitVec.extractLsb'_append_eq_of_le (Nat.le_add_left ..), Nat.add_sub_cancel]

theorem getLsbD_append_above {i : Nat} : (hi ++ lo).getLsbD (i + loWidth) = hi.getLsbD i := by
  rw [BitVec.getLsbD_append, if_neg (Nat.not_lt.mpr (Nat.le_add_left ..)), Nat.add_sub_cancel]

end

section
variable (op : BitVec 4) (keyLen : BitVec 6) (blkLen : BitVec 5)

theorem op_commandWord : (commandWord op keyLen blkLen).extractLsb' 0 4 = op :=
  extractLsb'_append_low _ op

theorem keyLen_commandWord : (commandWord op keyLen blkLen).extractLsb' 8 6 = keyLen :=
  (extractLsb'_append_above _ op).trans <| (extractLsb'_append_above _ 0#4).trans <|
    extractLsb'_append_low _ keyLen

theorem blkLen_commandWord : (commandWord op keyLen blkLen).extractLsb' 16 5 = blkLen :=
  (extractLsb'_append_above _ op).trans <| (extractLsb'_append_above _ 0#4).trans <|
    (extractLsb'_append_above _ keyLen).trans <| (extractLsb'_append_above _ 0#2).trans <|
      extractLsb'_append_low _ blkLen

theorem reservedCommandBits_commandWord : reservedCommandBits (commandWord op keyLen blkLen) = false := by
  have low : (commandWord op keyLen blkLen).extractLsb' 4 4 = 0#4 :=
    (extractLsb'_append_above _ op).trans <| extractLsb'_append_low _ 0#4
  have middle : (commandWord op keyLen blkLen).extractLsb' 14 2 = 0#2 :=
    (extractLsb'_append_above _ op).trans <| (extractLsb'_append_above _ 0#4).trans <|
      (extractLsb'_append_above _ keyLen).trans <| extractLsb'_append_low _ 0#2
  have high : (commandWord op keyLen blkLen).extractLsb' 21 11 = 0#11 :=
    (extractLsb'_append_above _ op).trans <| (extractLsb'_append_above _ 0#4).trans <|
      (extractLsb'_append_above _ keyLen).trans <| (extractLsb'_append_above _ 0#2).trans <|
        (extractLsb'_append_above _ blkLen).trans BitVec.extractLsb'_eq_self
  simp [reservedCommandBits, low, middle, high]

end

/-- A command word is its fields when the reserved ones are zero (R303). -/
theorem commandWord_fields {cw : Word} (reserved : reservedCommandBits cw = false) :
    commandWord (cw.extractLsb' 0 4) (cw.extractLsb' 8 6) (cw.extractLsb' 16 5) = cw := by
  simp only [reservedCommandBits, Bool.or_eq_false_iff, bne_eq_false_iff_eq] at reserved
  obtain ⟨⟨low, middle⟩, high⟩ := reserved
  have join {hiStart loStart hiLen loLen : Nat} (adjacent : hiStart = loStart + loLen) :=
    BitVec.extractLsb'_append_extractLsb'_eq_extractLsb' (x := cw) (len₂ := hiLen) adjacent
  calc commandWord _ _ _
    _ = cw.extractLsb' 21 11 ++ cw.extractLsb' 16 5 ++ cw.extractLsb' 14 2 ++ cw.extractLsb' 8 6 ++
      cw.extractLsb' 4 4 ++ cw.extractLsb' 0 4 := by rw [low, middle, high]; rfl
    _ = cw.extractLsb' 0 32 := by simp only [join]
    _ = cw := BitVec.extractLsb'_eq_self

section
variable (write : Bool) (size : BitVec 2) (off : BitVec 8)

theorem offset_descriptor : (descriptor write size off).extractLsb' 0 8 = off :=
  extractLsb'_append_low _ off

theorem write_descriptor : (descriptor write size off).getLsbD 15 = write :=
  calc (descriptor write size off).getLsbD 15
    _ = (BitVec.ofBool write ++ 0#5 ++ size).getLsbD 7 := getLsbD_append_above _ off
    _ = (BitVec.ofBool write ++ 0#5).getLsbD 5 := getLsbD_append_above _ size
    _ = (BitVec.ofBool write).getLsbD 0 := getLsbD_append_above _ 0#5
    _ = write := by simp

/-- TD[8] is the low bit of SIZE, which tells the two narrow sizes apart (R301). -/
theorem sizeBit_descriptor : (descriptor write size off).getLsbD 8 = size.getLsbD 0 := by
  have low := congrArg (·.getLsbD 0) (size_descriptor write size off)
  simpa only [BitVec.getLsbD_extractLsb', Nat.zero_lt_two, decide_true, Bool.true_and] using low

end

/-- A descriptor is its fields when the reserved one is zero (R301). -/
theorem descriptor_fields {td : BitVec 16} (reserved : td.extractLsb' 10 5 = 0) :
    descriptor (td.getLsbD 15) (td.extractLsb' 8 2) (td.extractLsb' 0 8) = td := by
  have join {hiStart loStart hiLen loLen : Nat} (adjacent : hiStart = loStart + loLen) :=
    BitVec.extractLsb'_append_extractLsb'_eq_extractLsb' (x := td) (len₂ := hiLen) adjacent
  have write : BitVec.ofBool (td.getLsbD 15) = td.extractLsb' 15 1 := by
    rw [bits_ext_iff]; simp
  calc descriptor _ _ _
    _ = td.extractLsb' 15 1 ++ td.extractLsb' 10 5 ++ td.extractLsb' 8 2 ++ td.extractLsb' 0 8 := by
      rw [reserved, ← write]; rfl
    _ = td.extractLsb' 0 16 := by simp only [join]
    _ = td := BitVec.extractLsb'_eq_self

end Sys2Proof
end

section
/-! The decoder of command words, one equation per row (R304-R306). -/

namespace Sys2Proof

section
variable {cw : Word}

theorem decodeCommand_nop (op : cw.extractLsb' 0 4 = 0) : decodeCommand cw = .nop (cw.extractLsb' 4 28) :=
  if_pos ((rowNop_hits cw).mpr op)

theorem decodeCommand_cipher (op : cw.extractLsb' 0 4 = 1) (reserved : reservedCommandBits cw = false) :
    decodeCommand cw = .cipher (cw.extractLsb' 8 6) (cw.extractLsb' 16 5) := by
  have notNop : ¬ rowNop.hits cw = true := by rw [rowNop_hits, op]; decide
  rw [decodeCommand, if_neg notNop, if_pos ((rowCipher_hits cw).mpr ⟨op, reserved⟩)]

theorem decodeCommand_decipher (op : cw.extractLsb' 0 4 = 2) (reserved : reservedCommandBits cw = false) :
    decodeCommand cw = .decipher (cw.extractLsb' 8 6) (cw.extractLsb' 16 5) := by
  have notNop : ¬ rowNop.hits cw = true := by rw [rowNop_hits, op]; decide
  have notCipher : ¬ rowCipher.hits cw = true := by rw [rowCipher_hits, op]; exact fun h => absurd h.1 (by decide)
  rw [decodeCommand, if_neg notNop, if_neg notCipher, if_pos ((rowDecipher_hits cw).mpr ⟨op, reserved⟩)]

theorem decodeCommand_illegal (illegal : illegalCommand cw = true) : decodeCommand cw = .illegal cw := by
  obtain ⟨notNop, notCipher, notDecipher⟩ := (illegalCommand_iff cw).mp illegal
  simp only [decodeCommand, notNop, notCipher, notDecipher, Bool.false_eq_true, if_false]

end

theorem decodeCommand_append (ignored : BitVec 28) : decodeCommand (ignored ++ 0#4) = .nop ignored := by
  have upper : (ignored ++ 0#4).extractLsb' 4 28 = ignored :=
    (extractLsb'_append_above ignored 0#4).trans BitVec.extractLsb'_eq_self
  exact (decodeCommand_nop (extractLsb'_append_low ignored 0#4)).trans (congrArg Instr.nop upper)

theorem decodeCommand_commandWord_cipher (keyLen : BitVec 6) (blkLen : BitVec 5) :
    decodeCommand (commandWord 1 keyLen blkLen) = .cipher keyLen blkLen := by
  rw [decodeCommand_cipher (op_commandWord ..) (reservedCommandBits_commandWord ..), keyLen_commandWord,
    blkLen_commandWord]

theorem decodeCommand_commandWord_decipher (keyLen : BitVec 6) (blkLen : BitVec 5) :
    decodeCommand (commandWord 2 keyLen blkLen) = .decipher keyLen blkLen := by
  rw [decodeCommand_decipher (op_commandWord ..) (reservedCommandBits_commandWord ..), keyLen_commandWord,
    blkLen_commandWord]

/-- Every command word is the encoding of the well-formed instruction it decodes to. -/
theorem encode_decodeCommand (cw : Word) :
    (decodeCommand cw).wellFormed = true ∧ encode (decodeCommand cw) = .command cw := by
  obtain ⟨op, decoded⟩ | ⟨op, reserved, decoded⟩ | ⟨op, reserved, decoded⟩ | ⟨illegal, decoded⟩ :=
    decodeCommand_cases cw <;> rw [decoded]
  · have whole := BitVec.extractLsb'_append_extractLsb'_eq_extractLsb' (x := cw) (start₂ := 4) (start₁ := 0)
      (len₁ := 4) (len₂ := 28) rfl
    rw [op] at whole
    exact ⟨rfl, congrArg _ (whole.trans BitVec.extractLsb'_eq_self)⟩
  · have whole := commandWord_fields reserved
    rw [op] at whole
    exact ⟨rfl, congrArg _ whole⟩
  · have whole := commandWord_fields reserved
    rw [op] at whole
    exact ⟨rfl, congrArg _ whole⟩
  · exact ⟨illegal, rfl⟩

end Sys2Proof
end

section
/-! The decoder of transactions (R301, R302): what it does with the data word, and the BUSERR rows, which take what no
register row does. -/

namespace Sys2Proof

/-- The instruction with another data word: a write's is replaced, and a read has none. -/
def Instr.withData (data : Word) : Instr → Instr
  | .wrCtrl _ => .wrCtrl data
  | .wrStatus _ => .wrStatus data
  | .wrKeyLow j _ => .wrKeyLow j data
  | .wrKeyHigh j _ => .wrKeyHigh j data
  | .wrDin j _ => .wrDin j data
  | .wrDout j _ => .wrDout j data
  | .wrRsvd index _ => .wrRsvd index data
  | .busErrMisaligned wdata off => .busErrMisaligned (wdata.map fun _ => data) off
  | .busErrNarrow wdata half off => .busErrNarrow (wdata.map fun _ => data) half off
  | i => i

theorem wellFormed_withData (data : Word) (i : Instr) : (i.withData data).wellFormed = i.wellFormed := by
  cases i <;> rfl

theorem rowOf_withData (data : Word) (i : Instr) : rowOf (i.withData data) = rowOf i := by
  cases i <;> rfl

theorem encode_withData {td : BitVec 16} {i : Instr} (encoded : encode i = .transaction td 0) (data : Word) :
    encode (i.withData data) = .transaction td (if td.getLsbD 15 then data else 0) := by
  cases i with
  | nop | cipher | decipher | illegal => cases encoded
  | busErrMisaligned wdata | busErrNarrow wdata =>
    obtain ⟨rfl, -⟩ := CodeWord.transaction.inj encoded
    rw [write_descriptor]
    cases wdata <;> rfl
  | _ =>
    obtain ⟨rfl, -⟩ := CodeWord.transaction.inj encoded
    rw [write_descriptor]
    rfl

theorem writeData_eq_map (td : BitVec 16) (data : Word) : writeData td data = (writeData td 0).map fun _ => data := by
  cases write : td.getLsbD 15 <;> simp [writeData, write]

/-- The descriptor alone selects the row; the data word is only carried. -/
theorem decodeRow_eq_withData (td : BitVec 16) (data : Word) : decodeRow td data = (decodeRow td 0).withData data := by
  simp only [decodeRow, apply_ite (Instr.withData data), writeData_eq_map td data]
  rfl

theorem spells_and_row_of_decode {td : BitVec 16} {data : Word} {i : Instr}
    (decoded : decodeTransaction td data = .ok i) : Machine.SpellsTransaction td ∧ decodeRow td data = i := by
  obtain ⟨-, refused⟩ | ⟨-, -, refused⟩ | ⟨reserved, size, row⟩ := decodeTransaction_cases td data
  · rw [refused] at decoded; cases decoded
  · rw [refused] at decoded; cases decoded
  · exact ⟨⟨reserved, size⟩, Except.ok.inj (row.symm.trans decoded)⟩

theorem decodeTransaction_withData {td : BitVec 16} {i : Instr} (decoded : decodeTransaction td 0 = .ok i)
    (data : Word) : decodeTransaction td data = .ok (i.withData data) := by
  obtain ⟨spells, rfl⟩ := spells_and_row_of_decode decoded
  rw [decodeTransaction_of_spells spells data, decodeRow_eq_withData]

/-- The fourteen rows of registers and reserved offsets fix SIZE = 2 and OFF[1:0] = 0 (R203, R204). -/
theorem aligned_of_hits {row : OpcodeRow 16} (register : row ∈ transactionRows.take 14) {td : BitVec 16}
    (hit : row.hits td = true) : td.extractLsb' 8 2 = 2 ∧ td.extractLsb' 0 2 = 0 := by
  have fixed : ∀ row ∈ transactionRows.take 14,
      row.mask &&& 0x0303 = 0x0303 ∧ row.pattern &&& 0x0303 = 0x0200 := by
    decide
  obtain ⟨mask, pattern⟩ := fixed row register
  have bits : td &&& 0x0303 = 0x0200 := by
    rw [← mask, ← BitVec.and_assoc, beq_iff_eq.mp hit, pattern]
  simp only [bits_ext_iff, BitVec.getLsbD_and, BitVec.getLsbD_extractLsb'] at bits ⊢
  simp [Nat.forall_lt_succ_right, forall_le_one] at bits ⊢
  tauto

theorem decodeRow_of_not_aligned {td : BitVec 16}
    (bad : ¬ (td.extractLsb' 8 2 = 2 ∧ td.extractLsb' 0 2 = 0)) (data : Word) :
    decodeRow td data = if rowBusErrMisaligned.hits td then .busErrMisaligned (writeData td data) (td.extractLsb' 0 8)
      else .busErrNarrow (writeData td data) (td.getLsbD 8) (td.extractLsb' 0 8) := by
  have notHit : ∀ row ∈ transactionRows.take 14, ¬ row.hits td = true := fun row register hit =>
    bad (aligned_of_hits register hit)
  simp only [transactionRows, List.cons_append, List.nil_append, List.take_succ_cons, List.take_zero,
    List.forall_mem_cons] at notHit
  simp only [decodeRow, notHit, Bool.false_eq_true, if_false]

theorem writeData_accessWord (wdata : Option Word) (size : BitVec 2) (off : BitVec 8) :
    writeData (descriptor wdata.isSome size off) (wdata.getD 0) = wdata := by
  rw [writeData, write_descriptor]
  cases wdata <;> rfl

/-- A narrow or misaligned access (R203, R204) keeps its data, its offset and its size. -/
theorem decode_accessWord {size : BitVec 2} {off : BitVec 8} (spells : size ≠ 3)
    (bad : ¬ (size = 2 ∧ off.extractLsb' 0 2 = 0)) (wdata : Option Word) :
    decode (accessWord wdata size off) =
      .ok (if size = 2 then .busErrMisaligned wdata off else .busErrNarrow wdata (size.getLsbD 0) off) := by
  have notAligned : ¬ ((descriptor wdata.isSome size off).extractLsb' 8 2 = 2 ∧
      (descriptor wdata.isSome size off).extractLsb' 0 2 = 0) := by
    rwa [← BitVec.extractLsb'_extractLsb'_of_le (by decide : 0 + 2 ≤ 8), size_descriptor, offset_descriptor]
  have row : rowBusErrMisaligned.hits (descriptor wdata.isSome size off) = true ↔ size = 2 := by
    rw [rowBusErrMisaligned_hits, size_descriptor]
    exact and_iff_right (reservedBits_descriptor ..)
  refine (decodeTransaction_of_spells ((spellsTransaction_descriptor ..).mpr spells) _).trans (congrArg _ ?_)
  rw [decodeRow_of_not_aligned notAligned, writeData_accessWord, offset_descriptor, sizeBit_descriptor]
  simp only [row]

/-- The reserved word indices, each evaluated: the rows above RD.RSVD and WR.RSVD take none of them (R201, R311). -/
theorem decode_readWord_reserved : ∀ index, reservedIndex index = true →
    decode (readWord (index ++ 0#2)) = .ok (.rdRsvd index) := by
  decide +kernel

theorem decode_writeWord_reserved : ∀ index, reservedIndex index = true →
    decode (writeWord (index ++ 0#2) 0) = .ok (.wrRsvd index 0) := by
  decide +kernel

/-- Settles O1, constructor by constructor: the fields of a concatenation for the command words and the BUSERR rows, the
descriptor evaluated at each register or reserved index for the others. -/
theorem decodeOfEncodeIsIdentity : Obligations.DecodeOfEncodeIsIdentity := fun i wellFormed => by
  cases i with
  | nop ignored => exact congrArg _ (decodeCommand_append ignored)
  | cipher keyLen blkLen => exact congrArg _ (decodeCommand_commandWord_cipher keyLen blkLen)
  | decipher keyLen blkLen => exact congrArg _ (decodeCommand_commandWord_decipher keyLen blkLen)
  | illegal cw => exact congrArg _ (decodeCommand_illegal wellFormed)
  | rdCtrl | wrCtrl | rdStatus | wrStatus => rfl
  | rdKeyLow j | rdKeyHigh j | wrKeyLow j | wrKeyHigh j => fin_cases j <;> rfl
  | rdDin j | wrDin j | rdDout j | wrDout j => fin_cases j <;> rfl
  | rdRsvd index => exact decode_readWord_reserved index wellFormed
  | wrRsvd index data => exact decodeTransaction_withData (decode_writeWord_reserved index wellFormed) data
  | busErrMisaligned wdata off =>
    exact decode_accessWord (size := 2) (by decide) (fun aligned => bne_iff_ne.mp wellFormed aligned.2) wdata
  | busErrNarrow wdata half off =>
    cases half with
    | false => exact decode_accessWord (size := 0) (by decide) (fun aligned => absurd aligned.1 (by decide)) wdata
    | true => exact decode_accessWord (size := 1) (by decide) (fun aligned => absurd aligned.1 (by decide)) wdata

end Sys2Proof
end

section
/-! The encoder reaches every word the decoder accepts (R300-R303), and the decoder takes the first matching row
(R302, R311). -/

namespace Sys2Proof

/-- The instruction of a 32-bit access at an aligned offset, as the address map (R201) gives it: none of these is a
BUSERR row's. -/
theorem exists_encode_of_aligned (write : Bool) {off : BitVec 8} (aligned : off.toNat % 4 = 0) :
    ∃ i row, i.wellFormed = true ∧ encode i = .transaction (descriptor write 2 off) 0 ∧
      rowOf i = (none, some row) ∧ row.mnemonic ≠ "BUSERR" := by
  rw [aligned_eq_append aligned]
  obtain reserved | ctrl | status | ⟨first, array, j, register⟩ := wordIndex_cases (off.extractLsb' 2 6)
  · cases write with
    | false => exact ⟨.rdRsvd _, _, reserved, rfl, rfl, by decide⟩
    | true => exact ⟨.wrRsvd _ 0, _, reserved, rfl, rfl, by decide⟩
  · rw [ctrl]
    cases write with
    | false => exact ⟨.rdCtrl, _, rfl, rfl, rfl, by decide⟩
    | true => exact ⟨.wrCtrl 0, _, rfl, rfl, rfl, by decide⟩
  · rw [status]
    cases write with
    | false => exact ⟨.rdStatus, _, rfl, rfl, rfl, by decide⟩
    | true => exact ⟨.wrStatus 0, _, rfl, rfl, rfl, by decide⟩
  · rw [register]
    simp only [List.mem_cons, List.not_mem_nil, or_false] at array
    cases write with
    | false =>
      obtain rfl | rfl | rfl | rfl := array
      · exact ⟨.rdKeyLow j, _, rfl, rfl, rfl, by decide⟩
      · exact ⟨.rdKeyHigh j, _, rfl, rfl, rfl, by decide⟩
      · exact ⟨.rdDin j, _, rfl, rfl, rfl, by decide⟩
      · exact ⟨.rdDout j, _, rfl, rfl, rfl, by decide⟩
    | true =>
      obtain rfl | rfl | rfl | rfl := array
      · exact ⟨.wrKeyLow j 0, _, rfl, rfl, rfl, by decide⟩
      · exact ⟨.wrKeyHigh j 0, _, rfl, rfl, rfl, by decide⟩
      · exact ⟨.wrDin j 0, _, rfl, rfl, rfl, by decide⟩
      · exact ⟨.wrDout j 0, _, rfl, rfl, rfl, by decide⟩

theorem aligned_of_low_eq_zero {off : BitVec 8} (low : off.extractLsb' 0 2 = 0) : off.toNat % 4 = 0 := by
  simpa using congrArg BitVec.toNat low

/-- Every descriptor that spells a transaction (R302) is an instruction's. -/
theorem exists_encode (write : Bool) {size : BitVec 2} (off : BitVec 8) (spells : size ≠ 3) :
    ∃ i, i.wellFormed = true ∧ encode i = .transaction (descriptor write size off) 0 := by
  obtain ⟨wdata, rfl, zero⟩ : ∃ wdata : Option Word, wdata.isSome = write ∧ wdata.getD 0 = 0 := by
    cases write with
    | false => exact ⟨none, rfl, rfl⟩
    | true => exact ⟨some 0, rfl, rfl⟩
  have sizes : ∀ size : BitVec 2, size ≠ 3 → size = 0 ∨ size = 1 ∨ size = 2 := by decide
  obtain rfl | rfl | rfl := sizes size spells
  · exact ⟨.busErrNarrow wdata false off, rfl, congrArg _ zero⟩
  · exact ⟨.busErrNarrow wdata true off, rfl, congrArg _ zero⟩
  · by_cases low : off.extractLsb' 0 2 = 0
    · obtain ⟨i, -, wellFormed, encoded, -⟩ := exists_encode_of_aligned wdata.isSome (aligned_of_low_eq_zero low)
      exact ⟨i, wellFormed, encoded⟩
    · exact ⟨.busErrMisaligned wdata off, bne_iff_ne.mpr low, congrArg _ zero⟩

/-- The decoder inverts the encoder with any data word on the bus (R301). -/
theorem decodeTransaction_of_encode {i : Instr} (wellFormed : i.wellFormed = true) {td : BitVec 16}
    (encoded : encode i = .transaction td 0) (data : Word) : decodeTransaction td data = .ok (i.withData data) := by
  have decoded := decodeOfEncodeIsIdentity i wellFormed
  rw [encoded] at decoded
  exact decodeTransaction_withData decoded data

/-- Settles O2: an accepted word is the encoding of some well-formed instruction, and by O1 it decodes to that one. -/
theorem encodeOfDecodeIsIdentity : Obligations.EncodeOfDecodeIsIdentity := by
  refine ⟨encode_decodeCommand, fun td data i decoded => ?_⟩
  obtain ⟨⟨reserved, size⟩, -⟩ := spells_and_row_of_decode decoded
  obtain ⟨j, wellFormed, encoded⟩ := exists_encode (td.getLsbD 15) (td.extractLsb' 0 8) size
  rw [descriptor_fields reserved] at encoded
  obtain rfl : j.withData data = i :=
    Except.ok.inj ((decodeTransaction_of_encode wellFormed encoded data).symm.trans decoded)
  exact ⟨(wellFormed_withData data j).trans wellFormed, encode_withData encoded data⟩

/-- Rows that overlap agree on the bits that both fix. -/
theorem fixedBits_eq_of_hits {n : Nat} {r r' : OpcodeRow n} {w : BitVec n} (hit : r.hits w = true)
    (hit' : r'.hits w = true) : r.pattern &&& r'.mask = r'.pattern &&& r.mask := by
  rw [← beq_iff_eq.mp hit, ← beq_iff_eq.mp hit', BitVec.and_assoc, BitVec.and_assoc, BitVec.and_comm r.mask]

theorem length_filter_hits_le_one {n : Nat} {rows : List (OpcodeRow n)}
    (disjoint : rows.Pairwise fun r r' => r.pattern &&& r'.mask ≠ r'.pattern &&& r.mask) (w : BitVec n) :
    (rows.filter (·.hits w)).length ≤ 1 := by
  induction rows with
  | nil => exact Nat.zero_le 1
  | cons r rows ih =>
    obtain ⟨apart, disjoint⟩ := List.pairwise_cons.mp disjoint
    by_cases hit : r.hits w = true
    · have others : rows.filter (·.hits w) = [] := List.filter_eq_nil_iff.mpr fun r' mem hit' =>
        apart r' mem (fixedBits_eq_of_hits hit hit')
      rw [List.filter_cons, if_pos hit, others, List.length_singleton]
    · rw [List.filter_cons, if_neg hit]
      exact ih disjoint

/-- The decoder of command words takes the first matching row; ILLEGAL takes what is left (R311). -/
theorem firstRow_eq_rowOf_decodeCommand (cw : Word) : firstRow (.command cw) = rowOf (decodeCommand cw) := by
  simp only [firstRow, commandRows, decodeCommand, apply_ite rowOf]
  iterate 3
    rw [find?_cons_eq_ite, apply_ite (Prod.mk · none)]
    refine ite_congr rfl (fun _ => rfl) fun notHit => ?_
  rw [find?_cons_eq_ite, if_pos (rowIllegal_hits cw)]
  rfl

theorem firstRow_of_decode : ∀ {c : CodeWord} {i : Instr}, decode c = .ok i → firstRow c = rowOf i
  | .command cw, _, decoded => by
    obtain rfl := Except.ok.inj decoded
    exact firstRow_eq_rowOf_decodeCommand cw
  | .transaction td data, _, decoded => by
    obtain ⟨spells, rfl⟩ := spells_and_row_of_decode decoded
    exact firstRow_eq_rowOf_decodeRow spells data

/-- Settles O3; that no two of the rows named overlap is a comparison of their patterns on the bits both fix. -/
theorem decoderTakesFirstMatchingRow : Obligations.DecoderTakesFirstMatchingRow :=
  ⟨fun _ _ => firstRow_of_decode, length_filter_hits_le_one (by decide), length_filter_hits_le_one (by decide)⟩

/-- Settles O4: the decoder's two tests, the BUSERR accesses of R203 and R204 (O24), and the address map of R201. -/
theorem descriptorsRefusedAnsweredOrSelected : Obligations.DescriptorsRefusedAnsweredOrSelected := by
  intro s td data rest schedule
  refine ⟨fun reserved => ?_, fun reserved size => ?_, fun reserved bad => ?_, fun reserved size low => ?_⟩
  · rw [Machine.step_access schedule, Machine.runAccess, decodeTransaction, if_pos reserved]
  · rw [Machine.step_access schedule, Machine.runAccess, decodeTransaction, if_neg (not_not.mpr reserved), if_pos size]
  · rw [← BitVec.extractLsb'_extractLsb'_of_le (by decide : 0 + 2 ≤ 8)] at bad
    rw [← descriptor_fields reserved] at schedule
    exact Machine.busErrorsChangeNoState.1 s _ _ _ data rest bad schedule
  · rw [← BitVec.extractLsb'_extractLsb'_of_le (by decide : 0 + 2 ≤ 8)] at low
    obtain ⟨i, row, wellFormed, encoded, ofRow, register⟩ :=
      exists_encode_of_aligned (td.getLsbD 15) (aligned_of_low_eq_zero low)
    rw [← size, descriptor_fields reserved] at encoded
    have decoded := decodeTransaction_of_encode wellFormed encoded data
    have ofRow := (rowOf_withData data i).trans ofRow
    have first := (firstRow_of_decode (c := .transaction td data) decoded).trans ofRow
    exact ⟨_, row, decoded, (Prod.mk.inj first).2, ofRow, register⟩

/-- Settles O5, by evaluating the decoder on each word. -/
theorem specWordsDecode : Obligations.SpecWordsDecode := by
  unfold Obligations.SpecWordsDecode
  decide

end Sys2Proof
end

section
/-! A CTRL write (R652): R700's pseudocode on the raw word against the command-word rows. -/

namespace Sys2Proof.Machine

theorem processCommand_of_nop {v : Word} (op : v.extractLsb' 0 4 = 0) (s : State) : processCommand v s = s :=
  if_pos op

theorem processCommand_of_operation {v : Word} (op : opField v = 1 ∨ opField v = 2)
    (reserved : reservedCommandBits v = false) :
    processCommand v =
      issueOperation (if opField v = 1 then .cipher else .decipher) (keyLenField v) (blkLenField v) := by
  have notNop : opField v ≠ 0 := by rcases op with op | op <;> rw [op] <;> decide
  have legal : ¬ ((opField v ≠ 1 ∧ opField v ≠ 2) ∨ reservedFieldsSet v = true) := by
    rintro (⟨notCipher, notDecipher⟩ | set)
    · exact op.elim notCipher notDecipher
    · exact Bool.false_ne_true (reserved.symm.trans set)
  funext s
  simp only [processCommand, notNop, legal, issueOperation, if_false]

theorem processCommand_of_illegal {v : Word} (illegal : illegalCommand v = true) : processCommand v = issueIllegal := by
  have nop : opField v ≠ 0 := fun op => by simp [illegalCommand, show v.extractLsb' 0 4 = 0 from op] at illegal
  have bad : (opField v ≠ 1 ∧ opField v ≠ 2) ∨ reservedFieldsSet v = true := by
    by_contra legal
    rw [illegalCommand_eq_false legal] at illegal
    cases illegal
  funext s
  simp only [processCommand, nop, bad, issueIllegal, if_true, if_false]

/-- `ProcessCommand(v)` is the meaning of the row that v lies in (R652, R700). -/
theorem exec_wrCtrl (v : Word) (s : State) : exec (.wrCtrl v) s = exec (decodeCommand v) s := by
  rw [exec_eq_next, exec_eq_next]
  congr 1
  obtain ⟨op, decoded⟩ | ⟨op, reserved, decoded⟩ | ⟨op, reserved, decoded⟩ | ⟨illegal, decoded⟩ :=
    decodeCommand_cases v <;> rw [decoded, nextState, nextState]
  · obtain ⟨-, same⟩ | ⟨-, same⟩ := hostWrite_cases (processCommand v) s
    · exact same
    · exact same.trans (processCommand_of_nop op s)
  · have cipher : opField v = 1 := op
    rw [processCommand_of_operation (.inl op) reserved, if_pos cipher]
    rfl
  · have notCipher : opField v ≠ 1 := by rw [opField, op]; decide
    rw [processCommand_of_operation (.inr op) reserved, if_neg notCipher]
    rfl
  · rw [processCommand_of_illegal illegal]

/-- Settles O7: 0x8200 decodes to WR.CTRL, whose meaning is the command word's. -/
theorem ctrlWriteRunsItsCommandWord : Obligations.CtrlWriteRunsItsCommandWord :=
  ⟨fun s v => exec_wrCtrl v s, fun _ v _ schedule =>
    (step_of_decode (i := .wrCtrl v) schedule rfl).trans (exec_wrCtrl v _)⟩

end Sys2Proof.Machine
end

section
/-! Field arithmetic (spec/40_field_arithmetic.md R404). Multiplication is additive in both operands and commutes with
doubling, and every byte is a sum of doublings of 1; so an additive law is proved for 1 and for one more doubling. -/

namespace Sys2Proof

/-- A summand taken on the sum of two bits, as `xtime` takes the reduction and R401's loop takes the doubled operand. -/
theorem ite_xor_eq_xor_ite (x y : Bool) (a b c : Byte) :
    (if x ^^ y then a ^^^ b ^^^ c else a ^^^ b) = (if x then a ^^^ c else a) ^^^ (if y then b ^^^ c else b) := by
  cases x <;> cases y
  · rfl
  · exact BitVec.xor_assoc a b c
  · show a ^^^ b ^^^ c = a ^^^ c ^^^ b
    ac_rfl
  · calc a ^^^ b = a ^^^ b ^^^ (c ^^^ c) := by rw [BitVec.xor_self, BitVec.xor_zero]
      _ = a ^^^ c ^^^ (b ^^^ c) := by ac_rfl

@[simp] theorem xtime_xor (a b : Byte) : xtime (a ^^^ b) = xtime a ^^^ xtime b := by
  simp only [xtime, BitVec.getLsbD_xor, BitVec.shiftLeft_xor_distrib]
  exact ite_xor_eq_xor_ite ..

theorem foldl_gmulStep_xor_left (c : Byte) (l : List Nat) (r r' p p' : Byte) :
    (l.foldl (gmulStep c) (r ^^^ r', p ^^^ p')).1 =
      (l.foldl (gmulStep c) (r, p)).1 ^^^ (l.foldl (gmulStep c) (r', p')).1 := by
  induction l generalizing r r' p p' with
  | nil => rfl
  | cons i l ih =>
    simp only [List.foldl_cons, gmulStep, xtime_xor, ← ih]
    congr 3
    split
    · ac_rfl
    · rfl

theorem foldl_gmulStep_xor_right (b c : Byte) (l : List Nat) (r r' p : Byte) :
    (l.foldl (gmulStep (b ^^^ c)) (r ^^^ r', p)).1 =
      (l.foldl (gmulStep b) (r, p)).1 ^^^ (l.foldl (gmulStep c) (r', p)).1 := by
  induction l generalizing r r' p with
  | nil => rfl
  | cons i l ih => simp only [List.foldl_cons, gmulStep, BitVec.getLsbD_xor, ite_xor_eq_xor_ite, ih]

theorem foldl_gmulStep_xtime (b : Byte) (l : List Nat) (r p : Byte) :
    (l.foldl (gmulStep b) (xtime r, xtime p)).1 = xtime (l.foldl (gmulStep b) (r, p)).1 := by
  induction l generalizing r p with
  | nil => rfl
  | cons i l ih => simp only [List.foldl_cons, gmulStep, ← ih, apply_ite xtime, xtime_xor]

theorem gmul_xor_left (a b c : Byte) : gmul (a ^^^ b) c = gmul a c ^^^ gmul b c :=
  foldl_gmulStep_xor_left c _ 0 0 a b

theorem gmul_xor_right (a b c : Byte) : gmul a (b ^^^ c) = gmul a b ^^^ gmul a c :=
  foldl_gmulStep_xor_right b c _ 0 0 a

theorem gmul_xtime_left (a b : Byte) : gmul (xtime a) b = xtime (gmul a b) :=
  foldl_gmulStep_xtime b _ 0 a

/-- A byte is the sum of the powers of x at its set bits (R408). -/
@[simp] theorem gmul_one_left (b : Byte) : gmul 1 b = b := by
  revert b
  decide +kernel

theorem gmul_zero_left (a : Byte) : gmul 0 a = 0 := by
  simpa using gmul_xor_left 0 0 a

section
variable {P : Byte → Prop} (xor : ∀ a b, P a → P b → P (a ^^^ b)) (double : ∀ a, P a → P (xtime a))
include xor double

/-- R401's loop only adds and doubles. -/
theorem foldl_gmulStep_induction (b : Byte) (l : List Nat) {r p : Byte} (hr : P r) (hp : P p) :
    P (l.foldl (gmulStep b) (r, p)).1 := by
  induction l generalizing r p with
  | nil => exact hr
  | cons i l ih =>
    refine ih ?_ (double p hp)
    split
    · exact xor r p hr hp
    · exact hr

/-- Every byte is made from 1 by doubling and adding, as the product `gmul 1 a` is. -/
theorem byte_induction (one : P 1) (a : Byte) : P a := by
  rw [← gmul_one_left a]
  exact foldl_gmulStep_induction xor double a _ (xor 1 1 one one) one

end

@[simp] theorem gmul_one_right (a : Byte) : gmul a 1 = a := by
  induction a using byte_induction with
  | one => rfl
  | xor a b ha hb => rw [gmul_xor_left, ha, hb]
  | double a ha => rw [gmul_xtime_left, ha]

theorem gmul_xtime_right (a b : Byte) : gmul a (xtime b) = xtime (gmul a b) := by
  induction a using byte_induction with
  | one => rw [gmul_one_left, gmul_one_left]
  | xor a a' ha ha' => rw [gmul_xor_left, gmul_xor_left, xtime_xor, ha, ha']
  | double a ha => rw [gmul_xtime_left, gmul_xtime_left, ha]

theorem gmul_comm (a b : Byte) : gmul a b = gmul b a := by
  induction a using byte_induction with
  | one => rw [gmul_one_left, gmul_one_right]
  | xor a a' ha ha' => rw [gmul_xor_left, gmul_xor_right, ha, ha']
  | double a ha => rw [gmul_xtime_left, gmul_xtime_right, ha]

theorem gmul_assoc (a b c : Byte) : gmul (gmul a b) c = gmul a (gmul b c) := by
  induction a using byte_induction with
  | one => rw [gmul_one_left, gmul_one_left]
  | xor a a' ha ha' => simp only [gmul_xor_left, ha, ha']
  | double a ha => simp only [gmul_xtime_left, ha]

/-- Squaring in the field: it is additive and multiplicative, and fixes only 0 and 1. -/
def square (a : Byte) : Byte := gmul a a

theorem square_xor (a b : Byte) : square (a ^^^ b) = square a ^^^ square b :=
  calc square (a ^^^ b) = square a ^^^ square b ^^^ (gmul a b ^^^ gmul b a) := by
        simp only [square, gmul_xor_left, gmul_xor_right]
        ac_rfl
    _ = square a ^^^ square b := by rw [gmul_comm b a, BitVec.xor_self, BitVec.xor_zero]

theorem square_gmul (a b : Byte) : square (gmul a b) = gmul (square a) (square b) := by
  rw [square, gmul_assoc, gmul_comm b, gmul_assoc, ← gmul_assoc, square, square]

theorem xtime_eq_gmul_two (a : Byte) : xtime a = gmul 2 a := by
  rw [show (2 : Byte) = xtime 1 from rfl, gmul_xtime_left, gmul_one_left]

/-- `a^256 = a`, as squaring is additive and multiplicative, and so is decided by its values at 1 and at x. -/
theorem iterate_square_eight (a : Byte) : square^[8] a = a := by
  induction a using byte_induction with
  | one => decide
  | xor a b ha hb => exact (Function.Semiconj₂.iterate square_xor 8 a b).trans (congrArg₂ _ ha hb)
  | double a ha =>
    have two : square^[8] 2 = 2 := by decide +kernel
    rw [xtime_eq_gmul_two, Function.Semiconj₂.iterate square_gmul 8 2 a, two, ha]

/-- A square divides its own iterated squares. -/
theorem exists_square_gmul_eq_iterate (a : Byte) (n : ℕ) : ∃ c, gmul (square a) c = square^[n + 1] a := by
  induction n with
  | zero => exact ⟨1, gmul_one_right _⟩
  | succ n ih =>
    obtain ⟨c, hc⟩ := ih
    refine ⟨gmul (square a) (square c), ?_⟩
    rw [Function.iterate_succ_apply', ← hc, square_gmul]
    exact (gmul_assoc ..).symm

/-- This is where m(x) being irreducible counts: modulo a product of coprime polynomials there are more idempotents. -/
theorem eq_zero_or_one_of_square_eq {e : Byte} : square e = e → e = 0 ∨ e = 1 := by
  revert e
  decide +kernel

theorem exists_gmul_eq_one {a : Byte} (nonzero : a ≠ 0) : ∃ b, gmul a b = 1 := by
  obtain ⟨c, hc⟩ := exists_square_gmul_eq_iterate a 7
  rw [iterate_square_eight, square, gmul_assoc] at hc
  have idempotent : square (gmul a c) = gmul a c := by
    rw [square, gmul_comm a c, gmul_assoc, gmul_comm c a, hc, gmul_comm]
  obtain zero | one := eq_zero_or_one_of_square_eq idempotent
  · rw [zero, gmul_comm, gmul_zero_left] at hc
    exact absurd hc.symm nonzero
  · exact ⟨c, one⟩

/-- An inverse is unique in a commutative monoid. -/
theorem eq_of_gmul_eq_one {a b c : Byte} (hb : gmul a b = 1) (hc : gmul a c = 1) : b = c :=
  calc b = gmul b (gmul a c) := by rw [hc, gmul_one_right]
    _ = gmul (gmul a b) c := by rw [← gmul_assoc, gmul_comm b a]
    _ = c := by rw [hb, gmul_one_left]

/-- Settles O44: the inverse of `a` is the `c` of `a = a * (a * c)`, as `a * c` is idempotent and not 0. -/
theorem fieldLaws : Obligations.FieldLaws :=
  ⟨gmul_comm, fun a b c => (gmul_assoc a b c).symm, gmul_xor_right, fun a => ⟨gmul_one_left a, gmul_zero_left a⟩,
    fun _ nonzero => existsUnique_of_exists_of_unique (exists_gmul_eq_one nonzero) fun _ _ => eq_of_gmul_eq_one,
    xtime_xor, by decide⟩

end Sys2Proof
end

section
/-! The substitution tables (spec/41_sbox.md): INV_SBOX undoes SBOX (R454), and SBOX is R452's rule. -/

namespace Sys2Proof

/-- One direction of R454, entry by entry; the other follows, a finite injection being a permutation. -/
@[simp] theorem invSub_sub (x : Byte) : invSub (sub x) = x := by
  revert x
  decide +kernel

theorem sub_bijective : Function.Bijective sub :=
  Finite.injective_iff_bijective.mp (Function.LeftInverse.injective invSub_sub)

@[simp] theorem sub_invSub (x : Byte) : sub (invSub x) = x :=
  Function.LeftInverse.rightInverse_of_surjective invSub_sub sub_bijective.surjective x

/-- Settles O45: INV_SBOX is read at every entry of SBOX, and SBOX, being injective, takes every byte. -/
theorem sboxTablesAreMutualInverses : Obligations.SboxTablesAreMutualInverses :=
  ⟨fun x => ⟨invSub_sub x, sub_invSub x⟩, sub_bijective⟩

/-- R452 read backwards, entry by entry: SBOX takes the value `A(b)` at an inverse of b. -/
theorem gmul_invSub_affine_of_ne_zero {b : Byte} : b ≠ 0 → gmul b (invSub (affine b)) = 1 := by
  revert b
  decide +kernel

theorem ne_zero_of_gmul_eq_one {a b : Byte} (product : gmul a b = 1) : a ≠ 0 := by
  rintro rfl
  rw [gmul_zero_left] at product
  exact absurd product (by decide)

/-- Settles O46: b has one inverse, so a is the byte at which SBOX takes the value `A(b)`. -/
theorem sboxFollowsGenerationRule : Obligations.SboxFollowsGenerationRule := by
  refine ⟨by decide, fun a b product => ?_⟩
  have swapped : gmul b a = 1 := (gmul_comm b a).trans product
  have entry : a = invSub (affine b) :=
    eq_of_gmul_eq_one swapped (gmul_invSub_affine_of_ne_zero (ne_zero_of_gmul_eq_one swapped))
  rw [entry, sub_invSub]

end Sys2Proof
end

section
/-! The key schedule (spec/42_key_schedule.md): the loop of R505 appends words and changes none it has, so each word of
the expanded key is what the recurrence makes of the words before it. -/

namespace Sys2Proof

/-- The word R505 puts at index i, from the words w before it. -/
def nextWord (nk : KeySize) (w : List Quad) (i : Nat) : Quad :=
  (roundKeyWord w (i - nk.words)).xor (expandTemp nk i (roundKeyWord w (i - 1)))

section
variable (nk : KeySize)

theorem expandLoop_succ (n : Nat) (w : List Quad) :
    expandLoop nk (n + 1) w = expandLoop nk n (w ++ [nextWord nk w w.length]) := rfl

@[simp] theorem length_expandLoop (n : Nat) (w : List Quad) : (expandLoop nk n w).length = w.length + n := by
  induction n generalizing w with
  | zero => rfl
  | succ n ih =>
    rw [expandLoop_succ, ih, List.length_append, List.length_singleton]
    omega

theorem isPrefix_expandLoop (n : Nat) (w : List Quad) : w <+: expandLoop nk n w := by
  induction n generalizing w with
  | zero => exact ⟨[], List.append_nil w⟩
  | succ n ih => exact List.IsPrefix.trans ⟨_, rfl⟩ (ih _)

end

theorem roundKeyWord_of_isPrefix {w w' : List Quad} (pre : w <+: w') {i : Nat} (inside : i < w.length) :
    roundKeyWord w' i = roundKeyWord w i := by
  obtain ⟨later, rfl⟩ := pre
  exact List.getD_append w later _ i inside

theorem roundKeyWord_append_length (w : List Quad) (q : Quad) : roundKeyWord (w ++ [q]) w.length = q := by
  simp [roundKeyWord]

theorem words_pos (nk : KeySize) : 0 < nk.words := by cases nk <;> decide

theorem nextWord_of_isPrefix (nk : KeySize) {w w' : List Quad} (pre : w <+: w') (nonempty : 0 < w.length) :
    nextWord nk w' w.length = nextWord nk w w.length := by
  have back : w.length - nk.words < w.length := Nat.sub_lt nonempty (words_pos nk)
  have last : w.length - 1 < w.length := Nat.sub_lt nonempty Nat.one_pos
  rw [nextWord, nextWord, roundKeyWord_of_isPrefix pre back, roundKeyWord_of_isPrefix pre last]

/-- R505's recurrence at the words the loop adds, read in the finished schedule. -/
theorem roundKeyWord_expandLoop (nk : KeySize) (n : Nat) {w : List Quad} {i : Nat} (nonempty : 0 < w.length)
    (added : w.length ≤ i) (inside : i < w.length + n) :
    roundKeyWord (expandLoop nk n w) i = nextWord nk (expandLoop nk n w) i := by
  induction n generalizing w with
  | zero => omega
  | succ n ih =>
    obtain rfl | later := added.eq_or_lt
    · have whole : w ++ [nextWord nk w w.length] <+: expandLoop nk (n + 1) w := isPrefix_expandLoop nk n _
      rw [nextWord_of_isPrefix nk (isPrefix_expandLoop nk _ w) nonempty, roundKeyWord_of_isPrefix whole (by simp),
        roundKeyWord_append_length]
    · exact ih (by simp) (by simpa using later) (by simp; omega)

theorem words_le_length (nk : KeySize) : nk.words ≤ 4 * (nk.rounds + 1) := by cases nk <;> decide

theorem drop_eq_getD_cons {key : List Byte} {n : Nat} (within : n < key.length) :
    key.drop n = key.getD n 0 :: key.drop (n + 1) := by
  rw [List.drop_eq_getElem_cons within, List.getD_eq_getElem _ _ within]

/-- The bytes of R504's initial word i. -/
theorem bytes_keyWord {key : List Byte} {i : Nat} (inside : 4 * i + 3 < key.length) :
    (keyWord key i).bytes = (key.drop (4 * i)).take 4 := by
  rw [drop_eq_getD_cons (by omega), drop_eq_getD_cons (by omega), drop_eq_getD_cons (by omega),
    drop_eq_getD_cons inside]
  rfl

section
variable {nk : KeySize} (key : List Byte) {i : Nat}

/-- R504: the words of the key stand first in the expanded key. -/
theorem roundKeyWord_expand_key (initial : i < nk.words) : roundKeyWord (expand nk key) i = keyWord key i := by
  rw [expand, roundKeyWord_of_isPrefix (isPrefix_expandLoop nk _ _) (by simpa using initial)]
  simp [roundKeyWord, initial]

/-- R505 on the expanded key. -/
theorem roundKeyWord_expand_next (added : nk.words ≤ i) (inside : i < 4 * (nk.rounds + 1)) :
    roundKeyWord (expand nk key) i = nextWord nk (expand nk key) i := by
  have initial : ((List.range nk.words).map (keyWord key)).length = nk.words := by simp
  have positive := words_pos nk
  exact roundKeyWord_expandLoop nk _ (by omega) (by omega) (by omega)

end

/-- The test of R505's extra SubWord step is that of AES-256 at an index 4 mod 8. -/
theorem extraSubWord_iff (nk : KeySize) (i : Nat) :
    nk.words = 8 ∧ i % nk.words = 4 ↔ nk = .aes256 ∧ i % 8 = 4 := by
  cases nk <;> simp [KeySize.words]

/-- Settles O47: the loop adds to the Nk words of the key as many as are missing. -/
theorem expandedKeyWordCount : Obligations.ExpandedKeyWordCount := fun nk key => by
  rw [expand, length_expandLoop, List.length_map, List.length_range, Nat.add_sub_cancel' (words_le_length nk)]

/-- Settles O48: an index is one of the key's words or one that the loop adds. -/
theorem expandFollowsRecurrence : Obligations.ExpandFollowsRecurrence := by
  refine fun nk key => ⟨fun i initial length => ?_, fun i added inside => ?_⟩
  · rw [roundKeyWord_expand_key key initial, bytes_keyWord (by omega)]
  · rw [roundKeyWord_expand_next key added inside]
    simp only [nextWord, expandTemp, extraSubWord_iff]

end Sys2Proof
end

section
/-! The round transforms (spec/43_round_transforms.md R556-R558), byte by byte. MixColumns and InvMixColumns multiply
each column by MIX and by INV_MIX, so they undo each other as the product of the two matrices is the identity. -/

namespace Sys2Proof

/-- A row times a matrix, given by its rows: the row of a matrix product. -/
def rowTimesMatrix (u : Quad) (m : Fin 4 → Quad) : Quad :=
  Quad.ofFn fun c => rowTimesColumn u (Quad.ofFn fun k => (m k).get c)

/-- Row r of the identity matrix. -/
def unitRow (r : Fin 4) : Quad :=
  match r with
  | 0 => ⟨1, 0, 0, 0⟩
  | 1 => ⟨0, 1, 0, 0⟩
  | 2 => ⟨0, 0, 1, 0⟩
  | 3 => ⟨0, 0, 0, 1⟩

theorem rowTimesColumn_unitRow (r : Fin 4) (v : Quad) : rowTimesColumn (unitRow r) v = v.get r := by
  fin_cases r
  all_goals
    simp only [unitRow, rowTimesColumn, gmul_one_left, gmul_zero_left]
    simp [Quad.get]

/-- The matrix product is associative. -/
theorem rowTimesColumn_rowTimesMatrix (u : Quad) (m : Fin 4 → Quad) (v : Quad) :
    rowTimesColumn (rowTimesMatrix u m) v = rowTimesColumn u (Quad.ofFn fun k => rowTimesColumn (m k) v) := by
  simp only [rowTimesColumn, rowTimesMatrix, Quad.ofFn, Quad.get, gmul_xor_left, gmul_xor_right, gmul_assoc]
  ac_rfl

theorem rowTimesMatrix_invMix_mix (r : Fin 4) : rowTimesMatrix (invMix r) mix = unitRow r := by
  revert r
  decide

theorem rowTimesMatrix_mix_invMix (r : Fin 4) : rowTimesMatrix (mix r) invMix = unitRow r := by
  revert r
  decide

/-- When the product of two matrices is the identity, multiplying a column by one and then the other gives it back. -/
theorem rowTimesColumn_of_product_eq_unit {m n : Fin 4 → Quad} (product : ∀ r, rowTimesMatrix (m r) n = unitRow r)
    (r : Fin 4) (v : Quad) : rowTimesColumn (m r) (Quad.ofFn fun k => rowTimesColumn (n k) v) = v.get r := by
  rw [← rowTimesColumn_rowTimesMatrix, product, rowTimesColumn_unitRow]

section
variable (s : Matrix)

@[simp] theorem invSubBytes_subBytes : invSubBytes (subBytes s) = s := Matrix.ext_get fun r c => by
  rw [invSubBytes_get, subBytes_get, invSub_sub]

@[simp] theorem subBytes_invSubBytes : subBytes (invSubBytes s) = s := Matrix.ext_get fun r c => by
  rw [subBytes_get, invSubBytes_get, sub_invSub]

@[simp] theorem invShiftRows_shiftRows : invShiftRows (shiftRows s) = s := Matrix.ext_get fun r c => by
  rw [invShiftRows_get, shiftRows_get, sub_add_cancel]

@[simp] theorem shiftRows_invShiftRows : shiftRows (invShiftRows s) = s := Matrix.ext_get fun r c => by
  rw [shiftRows_get, invShiftRows_get, add_sub_cancel_right]

@[simp] theorem invMixColumns_mixColumns : invMixColumns (mixColumns s) = s := Matrix.ext_get fun r c => by
  rw [invMixColumns_get, mixColumns, Matrix.col_ofFn]
  exact rowTimesColumn_of_product_eq_unit rowTimesMatrix_invMix_mix r (s.col c)

@[simp] theorem mixColumns_invMixColumns : mixColumns (invMixColumns s) = s := Matrix.ext_get fun r c => by
  rw [mixColumns_get, invMixColumns, Matrix.col_ofFn]
  exact rowTimesColumn_of_product_eq_unit rowTimesMatrix_mix_invMix r (s.col c)

/-- R558: R550 treats each byte alone, wherever R552 puts it. -/
theorem subBytes_shiftRows : subBytes (shiftRows s) = shiftRows (subBytes s) := Matrix.ext_get fun r c => by
  rw [subBytes_get, shiftRows_get, shiftRows_get, subBytes_get]

theorem invSubBytes_invShiftRows : invSubBytes (invShiftRows s) = invShiftRows (invSubBytes s) :=
  Matrix.ext_get fun r c => by rw [invSubBytes_get, invShiftRows_get, invShiftRows_get, invSubBytes_get]

@[simp] theorem addRoundKey_addRoundKey (w : List Quad) (k : Nat) : addRoundKey (addRoundKey s w k) w k = s :=
  Matrix.ext_get fun r c => by
    rw [addRoundKey_get, addRoundKey_get, BitVec.xor_assoc, BitVec.xor_self, BitVec.xor_zero]

end

/-- Settles O49: INV_SBOX undoes SBOX at every byte (R454), the two rotations of a row cancel mod 4, and the product of
MIX and INV_MIX is the identity in both orders. -/
theorem inversePrimitivesCompose : Obligations.InversePrimitivesCompose := fun s =>
  ⟨invSubBytes_subBytes s, subBytes_invSubBytes s, invShiftRows_shiftRows s, shiftRows_invShiftRows s,
    invMixColumns_mixColumns s, mixColumns_invMixColumns s⟩

/-- Settles O50: substitution acts on bytes and shifting on their places; a byte XORed in twice cancels. -/
theorem substitutionCommutesWithShifting : Obligations.SubstitutionCommutesWithShifting := fun s =>
  ⟨subBytes_shiftRows s, invSubBytes_invShiftRows s, addRoundKey_addRoundKey s⟩

end Sys2Proof
end

section
/-! The round-trip law (spec/44_pipelines.md R604). A middle round of InvCipher is InvShiftRows, InvSubBytes, AddRoundKey,
InvMixColumns in this order (R603), so it undoes no middle round of Cipher outright: it does so between States that
SubBytes and ShiftRows have already taken further, and the middle rounds cancel in pairs, innermost first. -/

namespace Sys2Proof

/-- Steps that each undo a step on what h makes of a state undo a whole run of them, taken in the reverse order. -/
theorem foldl_reverse_undoes_foldl {α β ι : Type} {f : α → ι → α} {g : β → ι → β} {h : α → β}
    (undo : ∀ s i, g (h (f s i)) i = h s) (l : List ι) (s : α) : l.reverse.foldl g (h (l.foldl f s)) = h s := by
  induction l generalizing s with
  | nil => rfl
  | cons i l ih => simp only [List.reverse_cons, List.foldl_append, List.foldl_cons, List.foldl_nil, ih, undo]

@[simp] theorem loadState_storeState (s : Matrix) : loadState (storeState s) = s := rfl

theorem storeState_loadState {block : List Byte} (length : block.length = 16) : storeState (loadState block) = block :=
  calc
    storeState (loadState block) = (List.range 16).map (block.getD · 0) := rfl
    _ = block := List.ext_getElem (by simp [length]) fun i _ inside => by simp [inside]

section
variable (w : List Quad) (s : Matrix)

theorem decipherMiddleRound_undoes (rd : Nat) :
    decipherMiddleRound w (shiftRows (subBytes (cipherMiddleRound w s rd))) rd = shiftRows (subBytes s) := by
  simp [decipherMiddleRound, cipherMiddleRound]

theorem cipherMiddleRound_undoes (rd : Nat) :
    cipherMiddleRound w (invSubBytes (invShiftRows (decipherMiddleRound w s rd))) rd =
      invSubBytes (invShiftRows s) := by
  simp [decipherMiddleRound, cipherMiddleRound]

theorem decipherMiddleRounds_undo (rounds : List Nat) :
    rounds.reverse.foldl (decipherMiddleRound w) (shiftRows (subBytes (rounds.foldl (cipherMiddleRound w) s))) =
      shiftRows (subBytes s) :=
  foldl_reverse_undoes_foldl (h := fun s => shiftRows (subBytes s)) (decipherMiddleRound_undoes w) rounds s

theorem cipherMiddleRounds_undo (rounds : List Nat) :
    rounds.foldl (cipherMiddleRound w)
        (invSubBytes (invShiftRows (rounds.reverse.foldl (decipherMiddleRound w) s))) =
      invSubBytes (invShiftRows s) := by
  have undone := foldl_reverse_undoes_foldl (h := fun s => invSubBytes (invShiftRows s)) (cipherMiddleRound_undoes w)
    rounds.reverse s
  rwa [List.reverse_reverse] at undone

end

section
variable (nk : KeySize) (key : List Byte) {block : List Byte}

theorem invCipher_cipher (length : block.length = 16) : invCipher nk (cipher nk block key) key = block := by
  simp only [invCipher, cipher, cipherFinalRound, decipherFinalRound, loadState_storeState, addRoundKey_addRoundKey]
  rw [decipherMiddleRounds_undo, invShiftRows_shiftRows, invSubBytes_subBytes, addRoundKey_addRoundKey,
    storeState_loadState length]

theorem cipher_invCipher (length : block.length = 16) : cipher nk (invCipher nk block key) key = block := by
  simp only [invCipher, cipher, cipherFinalRound, decipherFinalRound, loadState_storeState, addRoundKey_addRoundKey]
  rw [cipherMiddleRounds_undo, subBytes_invSubBytes, shiftRows_invShiftRows, addRoundKey_addRoundKey,
    storeState_loadState length]

end

/-- Settles O51: the middle rounds cancel in pairs, and the first and the final round of one pipeline against the final
and the first of the other; of the expanded key only that both pipelines use the same one matters. -/
theorem cipherRoundTrip : Obligations.CipherRoundTrip := fun nk key _ _ length =>
  ⟨invCipher_cipher nk key length, cipher_invCipher nk key length⟩

end Sys2Proof
end

section
/-! The register transactions (spec/45_bus_transactions.md R650-R662): what a read returns, and what a write stores in a
register, seen through STATUS's bits, the registers' words and their byte lanes. -/

namespace Sys2Proof.Machine

theorem busyBit_eq_decide (phase : Phase) : phase.busyBit = decide (phase = .busy) := by
  cases phase <;> rfl

/-- A flag appended below a word becomes the first of its bits. -/
theorem getLsbD_append_ofBool {n : Nat} {hi : BitVec n} {bits : List Bool} (flag : Bool)
    (above : ∀ i, hi.getLsbD i = bits.getD i false) :
    ∀ i, (hi ++ BitVec.ofBool flag).getLsbD i = (flag :: bits).getD i false
  | 0 => by rw [BitVec.getLsbD_append]; simp
  | i + 1 => (getLsbD_append_above hi (BitVec.ofBool flag)).trans (above i)

/-- STATUS bit by bit (R653), the bits above OVR all zero. -/
theorem getLsbD_statusWord (phase : Phase) (st : Status) (i : Nat) :
    (statusWord phase st).getLsbD i =
      [decide (phase = .busy), st.done, st.keyErr, st.blkErr, st.illegal, st.ovr].getD i false := by
  have reserved : ∀ i, (0#26).getLsbD i = [].getD i false := fun _ => BitVec.getLsbD_zero
  rw [← busyBit_eq_decide]
  exact getLsbD_append_ofBool _ (getLsbD_append_ofBool _ (getLsbD_append_ofBool _ (getLsbD_append_ofBool _
    (getLsbD_append_ofBool _ (getLsbD_append_ofBool _ reserved))))) i

theorem extractLsb'_statusWord_above (phase : Phase) (st : Status) : (statusWord phase st).extractLsb' 6 26 = 0 :=
  BitVec.eq_of_getLsbD_eq fun i inside => by
    have above : (statusWord phase st).getLsbD (6 + i) = false := by
      rw [getLsbD_statusWord]
      exact List.getD_eq_default _ _ (Nat.le_add_right 6 i)
    simp [above]

/-- Settles O18: each read responds with its register, and the STATUS word holds one STATUS bit at each of bits 5:0. -/
theorem readsReturnTheRegister : Obligations.ReadsReturnTheRegister := fun s => by
  have bit := getLsbD_statusWord s.eng.phase s.status
  refine ⟨exec_eq_next .rdCtrl s, ⟨_, exec_eq_next .rdStatus s, bit 0, bit 1, bit 2, bit 3, bit 4, bit 5,
    extractLsb'_statusWord_above s.eng.phase s.status⟩, fun j => ?_, fun index => exec_eq_next (.rdRsvd index) s⟩
  exact ⟨exec_eq_next (.rdKeyLow j) s, exec_eq_next (.rdKeyHigh j) s, exec_eq_next (.rdDin j) s,
    exec_eq_next (.rdDout j) s⟩

/-- A host write to a released engine has its effect (R800). -/
theorem exec_of_hostWrite {i : Instr} {f : State → State} {s : State} (write : nextState i s = hostWrite f s)
    (released : s.resetAsserted = false) : exec i s = .next (f s) := by
  rw [exec_eq_next, write, hostWrite_released released]

/-- A bit written as 1 is cleared, one written as 0 stays (R654). -/
theorem and_not_eq_ite (stored written : Bool) : (stored && !written) = if written then false else stored := by
  cases written with
  | true => exact Bool.and_false stored
  | false => exact Bool.and_true stored

/-- Settles O22: WR.STATUS is a host write of `writeOneToClear`, and the decoder reads it from 0x8204. -/
theorem statusWriteClearsWrittenOnes : Obligations.StatusWriteClearsWrittenOnes := fun s v released => by
  refine ⟨⟨writeStatus v s, exec_of_hostWrite rfl released, rfl, ?_⟩,
    fun _ schedule => step_of_decode (i := .wrStatus v) schedule rfl⟩
  exact ⟨and_not_eq_ite .., and_not_eq_ite .., and_not_eq_ite .., and_not_eq_ite .., and_not_eq_ite ..⟩

/-- Register k after a write to register j. -/
theorem getElem_writeKey (j : Nat) (v : Word) (s : State) {k : Nat} (inside : k < 8) :
    (writeKey j v s).key[k] = if k = j then v else s.key[k] := by
  simp [Vector.getElem_setIfInBounds, eq_comm]

theorem getElem_writeDin (j : Nat) (v : Word) (s : State) {k : Nat} (inside : k < 4) :
    (writeDin j v s).din[k] = if k = j then v else s.din[k] := by
  simp [Vector.getElem_setIfInBounds, eq_comm]

/-- Settles O21: the three rows are host writes of `writeKey` and `writeDin`. -/
theorem operandWriteInstructionsComplete : Obligations.OperandWriteInstructionsComplete := fun s j v released =>
  ⟨⟨writeKey j.val v s, exec_of_hostWrite rfl released, rfl, fun k => getElem_writeKey _ v s k.isLt⟩,
    ⟨writeKey (4 + j.val) v s, exec_of_hostWrite rfl released, rfl, fun k => getElem_writeKey _ v s k.isLt⟩,
    ⟨writeDin j.val v s, exec_of_hostWrite rfl released, rfl, fun k => by
      simp only [getElem_writeDin, Fin.ext_iff]⟩⟩

/-- The KEY descriptors, whose registers lie in two rows of the table (R656): each decodes to a write of its register. -/
theorem decode_keyWrite (j : Fin 8) (v : Word) :
    ∃ i, decodeTransaction (0x8210 + 4 * BitVec.ofNat 16 j.val) v = .ok i ∧
      ∀ s, nextState i s = hostWrite (writeKey j.val v) s := by
  fin_cases j <;> exact ⟨_, rfl, fun _ => rfl⟩

theorem decode_dinWrite (j : Fin 4) (v : Word) :
    decodeTransaction (0x8230 + 4 * BitVec.ofNat 16 j.val) v = .ok (.wrDin j v) := by
  fin_cases j <;> rfl

/-- The bytes of KEY[j] are KEYB(4j) to KEYB(4j + 3) (R14, R103). -/
theorem keyByte_register (s : State) (j : Fin 8) {n : Nat} (lane : n < 4) :
    keyByte s (4 * j.val + n) = s.key[j.val].extractLsb' (8 * n) 8 := by
  have register : (4 * j.val + n) / 4 = j.val := by omega
  have byte : (4 * j.val + n) % 4 = n := by omega
  simp [keyByte, byteLane, register, byte]

/-- The bytes of DIN[j] are DINB(4j) to DINB(4j + 3) (R14, R104). -/
theorem dinByte_register (s : State) (j : Fin 4) {n : Nat} (lane : n < 4) :
    dinByte s (4 * j.val + n) = s.din[j.val].extractLsb' (8 * n) 8 := by
  have register : (4 * j.val + n) / 4 = j.val := by omega
  have byte : (4 * j.val + n) % 4 = n := by omega
  simp [dinByte, byteLane, register, byte]

/-- Settles O20: the descriptor decodes to a write of its register, and the register's bytes are the data's. -/
theorem operandWritesStoreOneRegister : Obligations.OperandWritesStoreOneRegister := fun s v rest released => by
  refine ⟨fun j schedule => ?_, fun j schedule => ?_⟩
  · obtain ⟨i, decoded, write⟩ := decode_keyWrite j v
    refine ⟨writeKey j.val v (dequeued rest s), ?_, rfl, fun k => ?_, fun n lane => ?_⟩
    · exact (step_of_decode schedule decoded).trans (exec_of_hostWrite (write _) released)
    · simp only [getElem_writeKey, dequeued_key, Fin.ext_iff]
    · rw [keyByte_register _ j lane, getElem_writeKey, if_pos rfl]
  · refine ⟨writeDin j.val v (dequeued rest s), ?_, rfl, fun k => ?_, fun n lane => ?_⟩
    · exact (step_of_decode schedule (decode_dinWrite j v)).trans (exec_of_hostWrite rfl released)
    · simp only [getElem_writeDin, dequeued_din, Fin.ext_iff]
    · rw [dinByte_register _ j lane, getElem_writeDin, if_pos rfl]

end Sys2Proof.Machine
end

section
/-! The commands (spec/46_commands.md R700-R710): what each command word does to a busy and to an idle engine, the
snapshot an acceptance takes, and what no command touches. -/

namespace Sys2Proof.Machine

section
variable {op : Operation} {kl : BitVec 6} {bl : BitVec 5} {s : State}

theorem issueOperation_of_busy (busy : s.eng.phase = .busy) :
    issueOperation op kl bl s = updateStatus (·.record .overrun) s := if_pos busy

theorem issueOperation_of_idle (idle : s.eng.phase = .idle) :
    issueOperation op kl bl s = checkAndAccept op kl bl (clearOutcome s) := if_neg (by simp [idle])

theorem issueIllegal_of_busy (busy : s.eng.phase = .busy) :
    issueIllegal s = updateStatus (·.record .overrun) s := if_pos busy

theorem issueIllegal_of_idle (idle : s.eng.phase = .idle) :
    issueIllegal s = updateStatus (·.clearOutcome.record .illegal) s := if_neg (by simp [idle])

/-- Both lengths are legal, or one of R700's two checks fails. -/
theorem lengths_cases (kl : BitVec 6) (bl : BitVec 5) :
    (∃ nk, keySizeOf kl = some nk ∧ blockLengthOk bl = true) ∨ (keySizeOf kl = none ∨ blockLengthOk bl = false) := by
  cases keySizeOf kl <;> cases blockLengthOk bl <;> simp

theorem issueOperation_of_legal {nk : KeySize} (idle : s.eng.phase = .idle) (size : keySizeOf kl = some nk)
    (block : blockLengthOk bl = true) : issueOperation op kl bl s = accept op nk (clearOutcome s) := by
  rw [issueOperation_of_idle idle]
  obtain ⟨nk', size', -, accepted⟩ | ⟨bad, -⟩ := checkAndAccept_cases op kl bl (clearOutcome s) rfl rfl
  · obtain rfl : nk = nk' := Option.some.inj (size.symm.trans size')
    exact accepted
  · simp [size, block] at bad

theorem issueOperation_of_bad_length (idle : s.eng.phase = .idle)
    (bad : keySizeOf kl = none ∨ blockLengthOk bl = false) :
    issueOperation op kl bl s =
      updateStatus (fun st => ⟨false, (keySizeOf kl).isNone, !blockLengthOk bl, false, st.ovr⟩) s := by
  rw [issueOperation_of_idle idle]
  obtain ⟨nk, size, block, -⟩ | ⟨-, rejected⟩ := checkAndAccept_cases op kl bl (clearOutcome s) rfl rfl
  · simp [size, block] at bad
  · exact rejected

end

/-- A CTRL write does what the row of its command word does (R652). -/
theorem nextState_wrCtrl (v : Word) (s : State) : nextState (.wrCtrl v) s = nextState (decodeCommand v) s :=
  Host.Outcome.next.inj (by rw [← exec_eq_next, ← exec_eq_next, exec_wrCtrl])

/-- What an idle engine does not accept is no more than a change of STATUS (R700, R710). -/
theorem nextState_wrCtrl_of_not_accepted {v : Word} {s : State}
    (rejected : ¬ (s.eng.phase = .idle ∧ AcceptableCommand v)) :
    ∃ f, nextState (.wrCtrl v) s = updateStatus f s := by
  obtain ⟨-, same⟩ | ⟨-, written⟩ := hostWrite_cases (processCommand v) s
  · exact ⟨id, same⟩
  · obtain same | ⟨idle, legal, -⟩ | ⟨f, changed, -⟩ := processCommand_cases v s
    · exact ⟨id, written.trans same⟩
    · exact absurd ⟨idle, legal⟩ rejected
    · exact ⟨f, written.trans changed⟩

/-- Settles O10: NOP's row is OP = 0, and a CTRL write does what its word's row does. -/
theorem nopHasNoEffect : Obligations.NopHasNoEffect := by
  refine ⟨fun x s => rfl, fun v op => ⟨decodeCommand_nop op, fun s => ?_⟩⟩
  rw [exec_wrCtrl, decodeCommand_nop op]
  rfl

/-- Settles O11: each row of a command word but NOP's raises E_OVERRUN while BUSY, and a CTRL write runs such a row. -/
theorem busyCommandIsDiscarded : Obligations.BusyCommandIsDiscarded := fun s released busy => by
  have operation {i : Instr} {op kl bl} (row : nextState i s = hostWrite (issueOperation op kl bl) s) :
      exec i s = .next (updateStatus (·.record .overrun) s) :=
    (exec_of_hostWrite row released).trans (congrArg _ (issueOperation_of_busy busy))
  have illegal (cw : Word) : exec (.illegal cw) s = .next (updateStatus (·.record .overrun) s) :=
    (exec_of_hostWrite rfl released).trans (congrArg _ (issueIllegal_of_busy busy))
  refine ⟨fun v op => ?_, fun _ _ => ⟨operation rfl, operation rfl⟩, illegal⟩
  rw [exec_wrCtrl]
  obtain ⟨nop, -⟩ | ⟨-, -, decoded⟩ | ⟨-, -, decoded⟩ | ⟨-, decoded⟩ := decodeCommand_cases v
  · exact absurd nop op
  · exact decoded ▸ operation rfl
  · exact decoded ▸ operation rfl
  · exact decoded ▸ illegal _

theorem words_le_eight (nk : KeySize) : nk.words ≤ 8 := by cases nk <;> decide

/-- The key bytes of the snapshot are the bytes of the first Nk KEY registers, lane by lane (R703, R14). -/
theorem getElem?_keyOperand (s : State) {nk : KeySize} {j n : Nat} (register : j < nk.words) (lane : n < 4) :
    (keyOperand s nk)[4 * j + n]? = s.key[j]?.map (·.extractLsb' (8 * n) 8) := by
  have inside : 4 * j + n < nk.bytes := by rw [KeySize.bytes]; omega
  have index : j < 8 := register.trans_le (words_le_eight nk)
  have byte := keyByte_register s ⟨j, index⟩ lane
  simp [keyOperand, inside, index, byte]

/-- The block bytes of the snapshot are those of DIN (R703, R14). -/
theorem getElem?_blockOperand (s : State) {j n : Nat} (register : j < 4) (lane : n < 4) :
    (blockOperand s)[4 * j + n]? = s.din[j]?.map (·.extractLsb' (8 * n) 8) := by
  have inside : 4 * j + n < 16 := by omega
  have byte := dinByte_register s ⟨j, register⟩ lane
  simp [blockOperand, inside, register, byte]

/-- Settles O12: both rows of an operation accept with legal lengths, and the snapshot is read off KEY and DIN. -/
theorem validCommandIsAccepted : Obligations.ValidCommandIsAccepted := fun s op nk i released idle command => by
  have accepted : exec i s = .next (accept op nk (clearOutcome s)) := by
    obtain ⟨rfl, rfl⟩ | ⟨rfl, rfl⟩ := command <;>
      exact (exec_of_hostWrite rfl released).trans
        (congrArg _ (issueOperation_of_legal idle (keySizeOf_bytes nk) rfl))
  exact ⟨_, accepted, rfl, rfl, rfl, rfl, rfl, Nat.succ_pos _, by simp [keyOperand, KeySize.bytes],
    by simp [blockOperand], fun _ _ register lane => getElem?_keyOperand _ register lane,
    fun _ _ register lane => getElem?_blockOperand _ register lane⟩

/-- Settles O16: each of the four conditions keeps the command from being accepted. -/
theorem rejectedCommandStartsNothing : Obligations.RejectedCommandStartsNothing := fun s v condition => by
  have rejected : ¬ (s.eng.phase = .idle ∧ AcceptableCommand v) := by
    rintro ⟨idle, legal, -, keyLen, blkLen⟩
    obtain ⟨-, busy⟩ | illegal | keyErr | blkErr := condition
    · cases idle.symm.trans busy
    · cases legal.symm.trans illegal
    · exact keyErr keyLen
    · exact blkErr (BitVec.eq_of_toNat_eq blkLen)
  obtain ⟨f, changed⟩ := nextState_wrCtrl_of_not_accepted rejected
  exact ⟨updateStatus f s, (exec_eq_next _ s).trans (congrArg _ changed), rfl, rfl, rfl, rfl⟩

/-- What a command may change: STATUS and the engine, and not an OVR that is 1. -/
def CommandFrame (s t : State) : Prop :=
  t = { s with status := t.status, eng := t.eng } ∧ (s.status.ovr = true → t.status.ovr = true)

theorem commandFrame_hostWrite {f : State → State} {s : State} (frame : CommandFrame s (f s)) :
    CommandFrame s (hostWrite f s) := by
  obtain ⟨-, same⟩ | ⟨-, written⟩ := hostWrite_cases f s
  · exact same.symm ▸ ⟨rfl, id⟩
  · exact written.symm ▸ frame

theorem commandFrame_issueOperation (op : Operation) (kl : BitVec 6) (bl : BitVec 5) (s : State) :
    CommandFrame s (issueOperation op kl bl s) := by
  cases phase : s.eng.phase with
  | busy =>
    rw [issueOperation_of_busy phase]
    exact ⟨rfl, fun _ => rfl⟩
  | idle =>
    obtain ⟨nk, size, block⟩ | bad := lengths_cases kl bl
    · rw [issueOperation_of_legal phase size block]
      exact ⟨rfl, id⟩
    · rw [issueOperation_of_bad_length phase bad]
      exact ⟨rfl, id⟩

theorem commandFrame_issueIllegal (s : State) : CommandFrame s (issueIllegal s) := by
  cases phase : s.eng.phase with
  | busy =>
    rw [issueIllegal_of_busy phase]
    exact ⟨rfl, fun _ => rfl⟩
  | idle =>
    rw [issueIllegal_of_idle phase]
    exact ⟨rfl, id⟩

theorem commandFrame_decodeCommand (v : Word) (s : State) : CommandFrame s (nextState (decodeCommand v) s) := by
  obtain ⟨-, decoded⟩ | ⟨-, -, decoded⟩ | ⟨-, -, decoded⟩ | ⟨-, decoded⟩ := decodeCommand_cases v <;> rw [decoded]
  · exact ⟨rfl, id⟩
  · exact commandFrame_hostWrite (commandFrame_issueOperation ..)
  · exact commandFrame_hostWrite (commandFrame_issueOperation ..)
  · exact commandFrame_hostWrite (commandFrame_issueIllegal s)

theorem commandFrame_wrCtrl (v : Word) (s : State) : CommandFrame s (nextState (.wrCtrl v) s) :=
  nextState_wrCtrl v s ▸ commandFrame_decodeCommand v s

/-- Settles O17: the frame of each shared operation a command can be. -/
theorem commandsLeaveRegistersAlone : Obligations.CommandsLeaveRegistersAlone := fun s kl bl v x i command => by
  refine ⟨nextState i s, exec_eq_next i s, ?_⟩
  simp only [List.mem_cons, List.not_mem_nil, or_false] at command
  obtain rfl | rfl | rfl | rfl | rfl := command
  · exact ⟨rfl, id⟩
  · exact commandFrame_hostWrite (commandFrame_issueOperation ..)
  · exact commandFrame_hostWrite (commandFrame_issueOperation ..)
  · exact commandFrame_hostWrite (commandFrame_issueIllegal s)
  · exact commandFrame_wrCtrl v s

end Sys2Proof.Machine
end

section
/-! The engine's steps (spec/46_commands.md R705, R706): what a completion writes, and a command in flight under
transactions, rounds and clock cycles until it completes. -/

namespace Sys2Proof.Machine

theorem step_of_event {s : State} {e : Event} {rest : List Event} (schedule : s.schedule = e :: rest) :
    step s = takeEvent e (dequeued rest s) := by
  rw [step, schedule]

theorem step_of_empty {s : State} (empty : s.schedule = []) : step s = .next (completionStep s) := by
  rw [step, empty]
  rfl

theorem dequeued_nil {s : State} (empty : s.schedule = []) : dequeued [] s = s := by
  rw [dequeued, ← empty]

/-- The completion is the next event, or the only step left (R706; log 3). -/
theorem step_of_completion {s : State} {rest : List Event}
    (next : s.schedule = .completion :: rest ∨ (s.schedule = [] ∧ rest = [])) :
    step s = .next (completionStep (dequeued rest s)) := by
  obtain schedule | ⟨empty, rfl⟩ := next
  · exact step_of_event schedule
  · rw [step_of_empty empty, dequeued_nil empty]

theorem completionStep_of_busy {s : State} (busy : s.eng.phase = .busy) : completionStep s = complete s := if_pos busy

theorem completionStep_of_idle {s : State} (idle : s.eng.phase = .idle) : completionStep s = s :=
  if_neg (by simp [idle])

theorem roundStep_of_idle {s : State} (idle : s.eng.phase = .idle) : roundStep s = s := if_neg (by simp [idle])

theorem clockStep_of_idle {s : State} (idle : s.eng.phase = .idle) : clockStep s = s := if_neg (by simp [idle])

/-- Settles O28: each of the engine's steps asks for BUSY first. -/
theorem idleEngineTakesNoStep : Obligations.IdleEngineTakesNoStep := fun s rest idle => by
  refine ⟨fun e engine schedule => ?_, fun empty => ?_⟩
  · rw [step_of_event schedule]
    simp only [List.mem_cons, List.not_mem_nil, or_false] at engine
    obtain rfl | rfl | rfl := engine
    · exact congrArg _ (completionStep_of_idle (s := dequeued rest s) idle)
    · exact congrArg _ (roundStep_of_idle (s := dequeued rest s) idle)
    · exact congrArg _ (clockStep_of_idle (s := dequeued rest s) idle)
  · rw [step_of_empty empty, completionStep_of_idle idle]

theorem byteLane_wordLe (a b c d : Byte) {n : Nat} (lane : n < 4) :
    byteLane (wordLe a b c d) n = [a, b, c, d].getD n 0 := by
  rw [byteLane, wordLe]
  interval_cases n
  · exact extractLsb'_append_low _ a
  · exact (extractLsb'_append_above _ a).trans (extractLsb'_append_low _ b)
  · exact (extractLsb'_append_above _ a).trans <| (extractLsb'_append_above _ b).trans (extractLsb'_append_low _ c)
  · exact (extractLsb'_append_above _ a).trans <| (extractLsb'_append_above _ b).trans <|
      (extractLsb'_append_above _ c).trans BitVec.extractLsb'_eq_self

theorem getElem?_packedBlock (bytes : List Byte) {j : Nat} (register : j < 4) :
    (packedBlock bytes)[j]? = some (packedWord bytes j) := by
  interval_cases j <;> rfl

theorem byteLane_packedWord (bytes : List Byte) (j : Nat) {n : Nat} (lane : n < 4) :
    byteLane (packedWord bytes j) n = bytes.getD (4 * j + n) 0 := by
  rw [packedWord, byteLane_wordLe _ _ _ _ lane]
  interval_cases n <;> rfl

/-- The bytes of a result in DOUT are DOUTB(0) to DOUTB(15), in order (R105, R205). -/
theorem doutByte_of_packedBlock {s : State} {bytes : List Byte} (dout : s.dout = packedBlock bytes)
    (length : bytes.length = 16) {k : Nat} (inside : k < 16) : some (doutByte s k) = bytes[k]? := by
  have register : k / 4 < 4 := by omega
  have lane : k % 4 < 4 := by omega
  have index : 4 * (k / 4) + k % 4 = k := by omega
  rw [doutByte, dout, getElem?_packedBlock bytes register, Option.getD_some, byteLane_packedWord bytes _ lane, index]
  simp [length, inside]

theorem length_runPipeline (op : Operation) (nk : KeySize) (block key : List Byte) :
    (runPipeline op nk block key).length = 16 := by
  cases op <;> rfl

/-- Settles O27: the step is `complete`, whose DOUT holds the snapshot's result byte by byte. -/
theorem completionWritesTheResult : Obligations.CompletionWritesTheResult := fun s rest busy next => by
  have step_eq : step s = .next (complete (dequeued rest s)) :=
    (step_of_completion next).trans (congrArg _ (completionStep_of_busy busy))
  have result {k : Nat} (inside : k < 16) : some (doutByte (complete (dequeued rest s)) k) =
      (runPipeline s.eng.op s.eng.nk s.eng.blk s.eng.key)[k]? :=
    doutByte_of_packedBlock rfl (length_runPipeline ..) inside
  refine ⟨_, step_eq, rfl, rfl, rfl, rfl, rfl, rfl, fun op k inside => ?_, fun op k inside => ?_⟩ <;>
    rw [result inside, op] <;> rfl

theorem run_succ {s t : State} (next : step s = .next t) (n : Nat) : run (n + 1) s = run n t := by
  rw [run, next]

theorem exists_step_of_run_succ {n : Nat} {s t : State} (reached : run (n + 1) s = .next t) :
    ∃ u, step s = .next u ∧ run n u = .next t := by
  rw [run] at reached
  cases next : step s with
  | next u =>
    rw [next] at reached
    exact ⟨u, rfl, reached⟩
  | fault | refused =>
    rw [next] at reached
    cases reached

theorem run_add {m : Nat} {s t : State} (first : run m s = .next t) (n : Nat) : run (m + n) s = run n t := by
  induction m generalizing s with
  | zero =>
    cases first
    rw [Nat.zero_add]
  | succ m ih =>
    obtain ⟨u, next, first⟩ := exists_step_of_run_succ first
    rw [Nat.succ_add, run_succ next, ih first]

/-- Each step takes one event (R211). -/
theorem run_schedule {n : Nat} {s t : State} (reached : run n s = .next t) : t.schedule = s.schedule.drop n := by
  induction n generalizing s with
  | zero =>
    cases reached
    rfl
  | succ n ih =>
    obtain ⟨u, next, reached⟩ := exists_step_of_run_succ reached
    rw [ih reached, (stepTakesOneEvent s u next).1, List.drop_tail]

/-- A step stops only at a descriptor that spells no transaction (R302, R758). -/
theorem exists_step {s : State}
    (spells : ∀ td data rest, s.schedule = .access td data :: rest → SpellsTransaction td) :
    ∃ t, step s = .next t := by
  cases schedule : s.schedule with
  | nil => exact ⟨_, step_of_empty schedule⟩
  | cons e rest =>
    cases e with
    | access td data =>
      exact ⟨_, step_eq_nextState schedule (decodeTransaction_of_spells (spells td data rest schedule) data)⟩
    | completion | round | clock | reset | resetInput => exact ⟨_, step_of_event schedule⟩

theorem SchedulesTransactions.of_cons {e : Event} {es : List Event} (h : SchedulesTransactions (e :: es)) :
    SchedulesTransactions es := fun td data mem => h td data (List.mem_cons_of_mem e mem)

/-- Each step that leaves the command in flight makes the schedule shorter, and the empty schedule completes it. -/
theorem reaches_idle (es : List Event) {s : State} (schedule : s.schedule = es) (busy : s.eng.phase = .busy)
    (spell : SchedulesTransactions es) :
    ∃ n t, 0 < n ∧ n ≤ es.length + 1 ∧ run n s = .next t ∧ t.eng.phase = .idle := by
  induction es generalizing s with
  | nil =>
    refine ⟨1, complete s, Nat.one_pos, Nat.le_refl 1, run_succ ?_ 0, rfl⟩
    rw [step_of_empty schedule, completionStep_of_busy busy]
  | cons e es ih =>
    obtain ⟨t, next⟩ := exists_step (s := s) fun td data rest head => by
      obtain ⟨rfl, -⟩ := List.cons.inj (schedule.symm.trans head)
      exact spell td data List.mem_cons_self
    cases phase : t.eng.phase with
    | idle => exact ⟨1, t, Nat.one_pos, by simp, run_succ next 0, phase⟩
    | busy =>
      have tail : t.schedule = es := (stepTakesOneEvent s t next).1.trans (congrArg List.tail schedule)
      obtain ⟨n, u, -, bound, reached, idle⟩ := ih tail phase spell.of_cons
      exact ⟨n + 1, u, Nat.succ_pos n, Nat.succ_le_succ bound, (run_succ next n).trans reached, idle⟩

/-- Settles O34, by induction on the schedule. -/
theorem acceptedCommandCompletes : Obligations.AcceptedCommandCompletes :=
  fun s busy spell => reaches_idle s.schedule rfl busy spell

theorem CommandFrame.dout_eq {s t : State} (frame : CommandFrame s t) : t.dout = s.dout := by
  rw [frame.1]

theorem hostWrite_keeps {α : Type} (field : State → α) {f : State → State} {s : State}
    (kept : field (f s) = field s) : field (hostWrite f s) = field s := by
  obtain ⟨-, same⟩ | ⟨-, written⟩ := hostWrite_cases f s
  · exact congrArg field same
  · exact (congrArg field written).trans kept

/-- No transaction of a host changes DOUT (R105). -/
theorem nextState_dout (i : Instr) (s : State) : (nextState i s).dout = s.dout := by
  cases i with
  | cipher | decipher => exact hostWrite_keeps State.dout (commandFrame_issueOperation ..).dout_eq
  | illegal => exact hostWrite_keeps State.dout (commandFrame_issueIllegal s).dout_eq
  | wrCtrl v => exact (commandFrame_wrCtrl v s).dout_eq
  | wrStatus | wrKeyLow | wrKeyHigh | wrDin => exact hostWrite_keeps State.dout rfl
  | nop | rdCtrl | rdStatus | rdKeyLow | rdKeyHigh | rdDin | rdDout | wrDout | rdRsvd | wrRsvd | busErrMisaligned
  | busErrNarrow => rfl

/-- No transaction of a host reaches a busy engine (R111, R702). -/
theorem nextState_eng_of_busy (i : Instr) {s : State} (busy : s.eng.phase = .busy) : (nextState i s).eng = s.eng := by
  cases i with
  | cipher | decipher => exact hostWrite_keeps State.eng (by rw [issueOperation_of_busy busy, updateStatus_eng])
  | illegal => exact hostWrite_keeps State.eng (by rw [issueIllegal_of_busy busy, updateStatus_eng])
  | wrCtrl v =>
    obtain ⟨f, changed⟩ := nextState_wrCtrl_of_not_accepted (v := v) (s := s) (by simp [busy])
    rw [changed, updateStatus_eng]
  | wrStatus | wrKeyLow | wrKeyHigh | wrDin => exact hostWrite_keeps State.eng rfl
  | nop | rdCtrl | rdStatus | rdKeyLow | rdKeyHigh | rdDin | rdDout | wrDout | rdRsvd | wrRsvd | busErrMisaligned
  | busErrNarrow => rfl

/-- The command in flight in s is still in flight in t, so many cycles later, with the result before it in DOUT. -/
structure InFlightAfter (cycles : Nat) (s t : State) : Prop where
  phase : t.eng.phase = .busy
  remaining : t.eng.remaining = s.eng.remaining - cycles
  dout : t.dout = s.dout
  op : t.eng.op = s.eng.op
  nk : t.eng.nk = s.eng.nk
  key : t.eng.key = s.eng.key
  blk : t.eng.blk = s.eng.blk

theorem InFlightAfter.trans {m n : Nat} {s t u : State} (first : InFlightAfter m s t) (second : InFlightAfter n t u) :
    InFlightAfter (m + n) s u where
  phase := second.phase
  remaining := by rw [second.remaining, first.remaining, Nat.sub_sub]
  dout := second.dout.trans first.dout
  op := second.op.trans first.op
  nk := second.nk.trans first.nk
  key := second.key.trans first.key
  blk := second.blk.trans first.blk

theorem inFlightAfter_zero {s t : State} (busy : s.eng.phase = .busy) (eng : t.eng = s.eng) (dout : t.dout = s.dout) :
    InFlightAfter 0 s t :=
  ⟨eng ▸ busy, by rw [eng, Nat.sub_zero], dout, by rw [eng], by rw [eng], by rw [eng], by rw [eng]⟩

/-- The events of the cycle-timed model but reset (R706): transactions, rounds and clock cycles. -/
def TimedEvent (e : Event) : Prop := (∃ td data, e = .access td data) ∨ e = .round ∨ e = .clock

/-- One such event; a clock cycle needs a cycle left beside its own. -/
theorem step_inFlight {s : State} {e : Event} {rest : List Event} (busy : s.eng.phase = .busy)
    (schedule : s.schedule = e :: rest) (spells : ∀ td data, e = .access td data → SpellsTransaction td)
    (timed : TimedEvent e) (left : [e].count .clock < s.eng.remaining) :
    ∃ t, step s = .next t ∧ t.schedule = rest ∧ InFlightAfter ([e].count .clock) s t := by
  have next : ∃ t, step s = .next t ∧ InFlightAfter ([e].count .clock) s t := by
    obtain ⟨td, data, rfl⟩ | rfl | rfl := timed
    · refine ⟨_, step_eq_nextState schedule (decodeTransaction_of_spells (spells td data rfl) data), ?_⟩
      exact inFlightAfter_zero busy (nextState_eng_of_busy _ (s := dequeued rest s) busy) (nextState_dout _ _)
    · refine ⟨_, step_of_event schedule, ?_⟩
      obtain ⟨idle, -⟩ | ⟨-, done⟩ := roundStep_cases (dequeued rest s)
      · cases idle.symm.trans busy
      · exact done ▸ ⟨busy, rfl, rfl, rfl, rfl, rfl, rfl⟩
    · refine ⟨_, step_of_event schedule, ?_⟩
      obtain ⟨idle, -⟩ | ⟨-, last, -⟩ | ⟨-, -, passed⟩ := clockStep_cases (dequeued rest s)
      · cases idle.symm.trans busy
      · exact absurd last (Nat.not_le.mpr left)
      · exact passed ▸ ⟨busy, rfl, rfl, rfl, rfl, rfl, rfl⟩
  obtain ⟨t, next, flight⟩ := next
  exact ⟨t, next, (stepTakesOneEvent s t next).1.trans (congrArg List.tail schedule), flight⟩

/-- As long as more cycles are left than clock cycles pass, the command stays in flight (R706). -/
theorem run_inFlight (es : List Event) {rest : List Event} {s : State} (busy : s.eng.phase = .busy)
    (schedule : s.schedule = es ++ rest) (spell : SchedulesTransactions es) (timed : ∀ e ∈ es, TimedEvent e)
    (left : es.count .clock < s.eng.remaining) :
    ∃ t, run es.length s = .next t ∧ t.schedule = rest ∧ InFlightAfter (es.count .clock) s t := by
  induction es generalizing s with
  | nil => exact ⟨s, rfl, schedule, inFlightAfter_zero busy rfl rfl⟩
  | cons e es ih =>
    have count : (e :: es).count .clock = [e].count .clock + es.count .clock := List.count_append (l₁ := [e])
    rw [count] at left ⊢
    obtain ⟨t, next, tail, first⟩ := step_inFlight busy schedule
      (fun td data access => spell td data (access ▸ List.mem_cons_self)) (timed e List.mem_cons_self) (by omega)
    obtain ⟨u, reached, last, second⟩ := ih first.phase tail spell.of_cons
      (fun e mem => timed e (List.mem_cons_of_mem _ mem)) (by rw [first.remaining]; omega)
    exact ⟨u, (run_succ next es.length).trans reached, last, first.trans second⟩

theorem clockStep_of_last {s : State} (busy : s.eng.phase = .busy) (last : s.eng.remaining ≤ 1) :
    clockStep s = complete s := by
  rw [clockStep, if_pos busy, if_pos last]

/-- Settles O35: in flight event by event, and complete at the clock that finds one cycle left. -/
theorem timedCompletionTakesExactlyTheCyclesLeft : Obligations.TimedCompletionTakesExactlyTheCyclesLeft := by
  refine fun s es rest busy schedule spell timed => ⟨fun left => ?_, fun _ last rest' clock => ?_⟩
  · obtain ⟨t, reached, tail, flight⟩ := run_inFlight es busy schedule spell timed left
    exact ⟨t, reached, tail, flight.phase, flight.remaining, flight.dout, flight.op, flight.nk, flight.key, flight.blk⟩
  · obtain ⟨t, reached, tail, flight⟩ := run_inFlight es busy schedule spell timed (by omega)
    have oneLeft : t.eng.remaining ≤ 1 := by rw [flight.remaining]; omega
    have completes : clockStep (dequeued rest' t) = complete (dequeued rest' t) :=
      clockStep_of_last flight.phase oneLeft
    have next : step t = .next (complete (dequeued rest' t)) :=
      (step_of_event (tail.trans clock)).trans (congrArg _ completes)
    refine ⟨_, (run_add reached 1).trans (run_succ next 0), rfl, rfl, ?_⟩
    rw [← flight.op, ← flight.nk, ← flight.blk, ← flight.key]
    rfl

end Sys2Proof.Machine
end

section
/-! The cycle-timed model inside the untimed one (spec/46_commands.md R706, spec/70_reset_and_hazards.md R813). Only a
clock cycle reads the count of cycles left or the schedule, so every other event does the same from a state in which
both are replaced. A clock cycle in which the command completes is a completion of the untimed model, any other clock
cycle no step of it. -/

namespace Sys2Proof.Machine

/-- The state with another schedule and another count of cycles left. -/
def retimed (es : List Event) (cycles : Nat) (s : State) : State :=
  { s with eng := { s.eng with remaining := cycles }, schedule := es }

/-- Both states are one state but for the count of cycles left, and the second one has the given schedule. -/
def Retimed (es : List Event) (s t : State) : Prop := ∃ cycles, t = retimed es cycles s

section
variable {es : List Event} {s t : State} (h : Retimed es s t)
include h

theorem hostWrite_retimed {f : State → State} (effect : Retimed es (f s) (f t)) :
    Retimed es (hostWrite f s) (hostWrite f t) := by
  have level : t.resetAsserted = s.resetAsserted := by obtain ⟨_, rfl⟩ := h; rfl
  rw [hostWrite, hostWrite, level]
  split
  · exact h
  · exact effect

theorem updateStatus_retimed (f : Status → Status) : Retimed es (updateStatus f s) (updateStatus f t) := by
  obtain ⟨cycles, rfl⟩ := h
  exact ⟨cycles, rfl⟩

theorem respond_retimed (o : Observation) : Retimed es (respond o s) (respond o t) := by
  obtain ⟨cycles, rfl⟩ := h
  exact ⟨cycles, rfl⟩

theorem writeKey_retimed (j : Nat) (v : Word) : Retimed es (writeKey j v s) (writeKey j v t) := by
  obtain ⟨cycles, rfl⟩ := h
  exact ⟨cycles, rfl⟩

theorem writeDin_retimed (j : Nat) (v : Word) : Retimed es (writeDin j v s) (writeDin j v t) := by
  obtain ⟨cycles, rfl⟩ := h
  exact ⟨cycles, rfl⟩

/-- An acceptance sets the count anew. -/
theorem accept_retimed (op : Operation) (nk : KeySize) : Retimed es (accept op nk s) (accept op nk t) := by
  obtain ⟨cycles, rfl⟩ := h
  exact ⟨Config.lat op nk, rfl⟩

/-- A completion sets the count to 0. -/
theorem complete_retimed : Retimed es (complete s) (complete t) := by
  obtain ⟨cycles, rfl⟩ := h
  exact ⟨0, rfl⟩

theorem resetStep_retimed : Retimed es (resetStep s) (resetStep t) := by
  obtain ⟨cycles, rfl⟩ := h
  exact ⟨0, rfl⟩

theorem Retimed.phase_eq : t.eng.phase = s.eng.phase := by
  obtain ⟨_, rfl⟩ := h
  rfl

theorem issueOperation_retimed (op : Operation) (kl : BitVec 6) (bl : BitVec 5) :
    Retimed es (issueOperation op kl bl s) (issueOperation op kl bl t) := by
  cases phase : s.eng.phase with
  | busy =>
    rw [issueOperation_of_busy phase, issueOperation_of_busy (h.phase_eq.trans phase)]
    exact updateStatus_retimed h _
  | idle =>
    obtain ⟨nk, size, block⟩ | bad := lengths_cases kl bl
    · rw [issueOperation_of_legal phase size block, issueOperation_of_legal (h.phase_eq.trans phase) size block]
      exact accept_retimed (updateStatus_retimed h _) op nk
    · rw [issueOperation_of_bad_length phase bad, issueOperation_of_bad_length (h.phase_eq.trans phase) bad]
      exact updateStatus_retimed h _

theorem issueIllegal_retimed : Retimed es (issueIllegal s) (issueIllegal t) := by
  cases phase : s.eng.phase with
  | busy =>
    rw [issueIllegal_of_busy phase, issueIllegal_of_busy (h.phase_eq.trans phase)]
    exact updateStatus_retimed h _
  | idle =>
    rw [issueIllegal_of_idle phase, issueIllegal_of_idle (h.phase_eq.trans phase)]
    exact updateStatus_retimed h _

theorem decodeCommand_retimed (v : Word) :
    Retimed es (nextState (decodeCommand v) s) (nextState (decodeCommand v) t) := by
  obtain ⟨-, decoded⟩ | ⟨-, -, decoded⟩ | ⟨-, -, decoded⟩ | ⟨-, decoded⟩ := decodeCommand_cases v <;> rw [decoded]
  · exact h
  · exact hostWrite_retimed h (issueOperation_retimed h ..)
  · exact hostWrite_retimed h (issueOperation_retimed h ..)
  · exact hostWrite_retimed h (issueIllegal_retimed h)

/-- A read returns a register, and no register is the schedule or the count. -/
theorem read_retimed {value : State → Word} (register : ∀ cycles, value (retimed es cycles s) = value s) :
    Retimed es (respond (.value (value s)) s) (respond (.value (value t)) t) := by
  have same : value t = value s := by obtain ⟨cycles, rfl⟩ := h; exact register cycles
  exact same ▸ respond_retimed h _

theorem nextState_retimed (i : Instr) : Retimed es (nextState i s) (nextState i t) := by
  cases i with
  | nop | wrDout | wrRsvd => exact h
  | cipher | decipher => exact hostWrite_retimed h (issueOperation_retimed h ..)
  | illegal => exact hostWrite_retimed h (issueIllegal_retimed h)
  | wrCtrl v =>
    rw [nextState_wrCtrl, nextState_wrCtrl]
    exact decodeCommand_retimed h v
  | wrStatus => exact hostWrite_retimed h (updateStatus_retimed h _)
  | wrKeyLow | wrKeyHigh => exact hostWrite_retimed h (writeKey_retimed h ..)
  | wrDin => exact hostWrite_retimed h (writeDin_retimed h ..)
  | rdCtrl | rdRsvd | busErrMisaligned | busErrNarrow => exact respond_retimed h _
  | rdStatus => exact read_retimed h (value := fun s => statusWord s.eng.phase s.status) fun _ => rfl
  | rdKeyLow j => exact read_retimed h (value := fun s => s.key[j.val]) fun _ => rfl
  | rdKeyHigh j => exact read_retimed h (value := fun s => s.key[4 + j.val]) fun _ => rfl
  | rdDin j => exact read_retimed h (value := fun s => s.din[j.val]) fun _ => rfl
  | rdDout j => exact read_retimed h (value := fun s => s.dout[j.val]) fun _ => rfl

theorem completionStep_retimed : Retimed es (completionStep s) (completionStep t) := by
  rw [completionStep, completionStep, h.phase_eq]
  split
  · exact complete_retimed h
  · exact h

theorem roundStep_retimed : Retimed es (roundStep s) (roundStep t) := by
  rw [roundStep, roundStep, h.phase_eq]
  split
  · obtain ⟨cycles, rfl⟩ := h
    exact ⟨cycles, rfl⟩
  · exact h

theorem resetInputStep_retimed (asserted : Bool) :
    Retimed es (resetInputStep asserted s) (resetInputStep asserted t) := by
  obtain ⟨cycles, rfl⟩ := h
  cases asserted with
  | true => exact ⟨0, rfl⟩
  | false => exact ⟨cycles, rfl⟩

/-- Every event but a clock cycle. -/
theorem takeEvent_retimed {e : Event} (untimed : e ≠ .clock) {s' : State} (next : takeEvent e s = .next s') :
    ∃ t', takeEvent e t = .next t' ∧ Retimed es s' t' := by
  cases e with
  | clock => exact absurd rfl untimed
  | access td data =>
    cases decoded : decodeTransaction td data with
    | error => simp [takeEvent, runAccess, decoded] at next
    | ok i =>
      have runs (u : State) : takeEvent (.access td data) u = .next (nextState i u) := by
        simp only [takeEvent, runAccess, decoded, exec_eq_next]
      obtain rfl := Host.Outcome.next.inj ((runs s).symm.trans next)
      exact ⟨_, runs t, nextState_retimed h i⟩
  | completion => cases next; exact ⟨_, rfl, completionStep_retimed h⟩
  | round => cases next; exact ⟨_, rfl, roundStep_retimed h⟩
  | reset => cases next; exact ⟨_, rfl, resetStep_retimed h⟩
  | resetInput asserted => cases next; exact ⟨_, rfl, resetInputStep_retimed h asserted⟩

theorem Retimed.schedule_eq : t.schedule = es := by
  obtain ⟨_, rfl⟩ := h
  rfl

theorem Retimed.dequeued_left (rest : List Event) : Retimed es (dequeued rest s) t := by
  obtain ⟨cycles, rfl⟩ := h
  exact ⟨cycles, rfl⟩

theorem Retimed.dequeued_right (rest : List Event) : Retimed rest s (dequeued rest t) := by
  obtain ⟨cycles, rfl⟩ := h
  exact ⟨cycles, rfl⟩

end

/-- A clock cycle is a completion of the untimed model, or no more than a change of the count. -/
theorem clockStep_retimed (s : State) :
    (∀ es t, Retimed es s t → Retimed es (clockStep s) (completionStep t)) ∨
    (∀ es t, Retimed es s t → Retimed es (clockStep s) t) := by
  obtain ⟨-, same⟩ | ⟨busy, -, last⟩ | ⟨-, -, passed⟩ := clockStep_cases s
  · rw [same]
    exact .inr fun _ _ h => h
  · refine .inl fun es t h => ?_
    rw [last, completionStep_of_busy (h.phase_eq.trans busy)]
    exact complete_retimed h
  · rw [passed]
    refine .inr fun es t h => ?_
    obtain ⟨cycles, rfl⟩ := h
    exact ⟨cycles, rfl⟩

/-- Events without clock cycles that are es otherwise, but for completions, and that take every state which is s but for
the count of cycles left, whatever comes after them, to one which is t but for that count. -/
structure Untimes (es untimed : List Event) (s t : State) : Prop where
  noClock : .clock ∉ untimed
  others : ∀ p : Event → Bool, p .clock = false → p .completion = false → untimed.filter p = es.filter p
  run_eq : ∀ rest u, Retimed (untimed ++ rest) s u → ∃ u', run untimed.length u = .next u' ∧ Retimed rest t u'

theorem Untimes.nil (s : State) : Untimes [] [] s s where
  noClock := List.not_mem_nil
  others := fun _ _ _ => rfl
  run_eq := fun _ u h => ⟨u, rfl, h⟩

theorem Untimes.append {es es' l l' : List Event} {s t u : State} (first : Untimes es l s t)
    (second : Untimes es' l' t u) : Untimes (es ++ es') (l ++ l') s u where
  noClock := fun mem => (List.mem_append.mp mem).elim first.noClock second.noClock
  others := fun p clock completion => by
    rw [List.filter_append, List.filter_append, first.others p clock completion, second.others p clock completion]
  run_eq := fun rest a h => by
    rw [List.append_assoc] at h
    obtain ⟨b, reached, h⟩ := first.run_eq _ a h
    obtain ⟨c, reached', h⟩ := second.run_eq rest b h
    exact ⟨c, by rw [List.length_append, run_add reached, reached'], h⟩

/-- One event, taken in the untimed model as the event e'. -/
theorem untimes_of_takeEvent {e e' : Event} {rest : List Event} {s t : State} (noClock : e' ≠ .clock)
    (others : ∀ p : Event → Bool, p .clock = false → p .completion = false → [e'].filter p = [e].filter p)
    (taken : ∀ es u, Retimed es (dequeued rest s) u → ∃ u', takeEvent e' u = .next u' ∧ Retimed es t u') :
    Untimes [e] [e'] s t where
  noClock := fun mem => noClock (List.mem_singleton.mp mem).symm
  others := others
  run_eq := fun after u h => by
    obtain ⟨u', next, alike⟩ := taken after (dequeued after u) ((h.dequeued_left rest).dequeued_right after)
    exact ⟨u', run_succ ((step_of_event h.schedule_eq).trans next) 0, alike⟩

theorem exists_untimes_step {e : Event} {rest : List Event} {s t : State} (schedule : s.schedule = e :: rest)
    (next : step s = .next t) : ∃ l, Untimes [e] l s t := by
  rw [step_of_event schedule] at next
  by_cases clock : e = .clock
  · subst clock
    obtain rfl := Host.Outcome.next.inj next
    obtain completes | stays := clockStep_retimed (dequeued rest s)
    · exact ⟨[.completion], untimes_of_takeEvent (by decide) (fun p clock completion => by simp [clock, completion])
        fun es u h => ⟨_, rfl, completes es u h⟩⟩
    · refine ⟨[], List.not_mem_nil, fun p clock _ => by simp [clock], fun after u h => ⟨u, rfl, ?_⟩⟩
      exact stays after u (h.dequeued_left rest)
  · exact ⟨[e], untimes_of_takeEvent clock (fun _ _ _ => rfl) fun _ _ h => takeEvent_retimed h clock next⟩

theorem exists_untimes (es : List Event) {s t : State} (schedule : s.schedule = es)
    (reached : run es.length s = .next t) : ∃ l, Untimes es l s t := by
  induction es generalizing s with
  | nil =>
    cases reached
    exact ⟨[], .nil _⟩
  | cons e es ih =>
    obtain ⟨u, next, reached⟩ := exists_step_of_run_succ reached
    have tail : u.schedule = es := (stepTakesOneEvent s u next).1.trans (congrArg List.tail schedule)
    obtain ⟨l, first⟩ := exists_untimes_step schedule next
    obtain ⟨l', others⟩ := ih tail reached
    exact ⟨l ++ l', first.append others⟩

/-- Settles O36: event by event, a clock cycle being a completion or nothing. -/
theorem timedRunsAreUntimedRuns : Obligations.TimedRunsAreUntimedRuns := fun s t reached => by
  obtain ⟨es, untimes⟩ := exists_untimes s.schedule rfl reached
  have start : Retimed (es ++ []) s { s with schedule := es } := ⟨s.eng.remaining, by rw [List.append_nil]; rfl⟩
  obtain ⟨u, untimed, cycles, rfl⟩ := untimes.run_eq [] _ start
  have empty : t.schedule = [] := by rw [run_schedule reached, List.drop_length]
  refine ⟨es, _, untimes.noClock, untimes.others _ rfl rfl, untimed, ?_⟩
  rw [retimed, ← empty]

end Sys2Proof.Machine
end

section
/-! The error conditions (spec/60_exceptions.md R750-R758): what each command records, in R757's order, what clears OVR,
and the one thing that stops a step. -/

namespace Sys2Proof.Machine

/-- The 61 lengths of R751 are the ones that select no key size. -/
theorem isNone_keySizeOf : ∀ kl : BitVec 6, (keySizeOf kl).isNone = decide (kl.toNat ∉ [16, 24, 32]) := by decide

theorem not_blockLengthOk : ∀ bl : BitVec 5, (!blockLengthOk bl) = decide (bl.toNat ≠ 16) := by decide

section
variable {op : Operation} {kl : BitVec 6} {bl : BitVec 5} {s : State}

/-- R700 steps 3, 5 and 6: an operation's outcome bits are its two length checks (R751, R752), whether it is accepted or
not. -/
theorem status_issueOperation_of_idle (idle : s.eng.phase = .idle) :
    (issueOperation op kl bl s).status =
      ⟨false, decide (kl.toNat ∉ [16, 24, 32]), decide (bl.toNat ≠ 16), false, s.status.ovr⟩ := by
  rw [← isNone_keySizeOf, ← not_blockLengthOk]
  obtain ⟨nk, size, block⟩ | bad := lengths_cases kl bl
  · rw [issueOperation_of_legal idle size block, size, block]
    rfl
  · rw [issueOperation_of_bad_length idle bad]
    rfl

/-- An idle engine starts an operation exactly when neither length check fails (R700 step 6). -/
theorem issueOperation_busy_iff_of_idle (idle : s.eng.phase = .idle) :
    (issueOperation op kl bl s).eng.phase = .busy ↔
      (issueOperation op kl bl s).status.keyErr = false ∧ (issueOperation op kl bl s).status.blkErr = false := by
  obtain ⟨nk, size, block⟩ | bad := lengths_cases kl bl
  · rw [issueOperation_of_legal idle size block]
    exact iff_of_true rfl ⟨rfl, rfl⟩
  · rw [issueOperation_of_bad_length idle bad]
    refine iff_of_false (by simp [idle]) fun ⟨keyOk, blkOk⟩ => ?_
    obtain none | short := bad
    · rw [updateStatus_status, none] at keyOk
      cases keyOk
    · rw [updateStatus_status, short] at blkOk
      cases blkOk

end

section
variable {v : Word} {s : State} (released : s.resetAsserted = false)
include released

/-- A CTRL write of a legal word that is not a NOP issues its operation. -/
theorem exec_wrCtrl_of_legal (legal : illegalCommand v = false) (notNop : v.extractLsb' 0 4 ≠ 0) :
    ∃ op, exec (.wrCtrl v) s = .next (issueOperation op (v.extractLsb' 8 6) (v.extractLsb' 16 5) s) := by
  rw [exec_wrCtrl]
  obtain ⟨nop, -⟩ | ⟨-, -, decoded⟩ | ⟨-, -, decoded⟩ | ⟨illegal, -⟩ := decodeCommand_cases v
  · exact absurd nop notNop
  · exact ⟨.cipher, decoded ▸ exec_of_hostWrite rfl released⟩
  · exact ⟨.decipher, decoded ▸ exec_of_hostWrite rfl released⟩
  · cases legal.symm.trans illegal

theorem exec_illegal_of_idle (idle : s.eng.phase = .idle) (cw : Word) :
    exec (.illegal cw) s = .next (updateStatus (·.clearOutcome.record .illegal) s) :=
  (exec_of_hostWrite rfl released).trans (congrArg _ (issueIllegal_of_idle idle))

theorem exec_wrCtrl_of_illegal (idle : s.eng.phase = .idle) (illegal : illegalCommand v = true) :
    exec (.wrCtrl v) s = .next (updateStatus (·.clearOutcome.record .illegal) s) := by
  rw [exec_wrCtrl, decodeCommand_illegal illegal, exec_illegal_of_idle released idle]

end

/-- R753's two ways for a command word to be illegal. -/
theorem illegalCommand_of_op_or_reserved {v : Word}
    (bad : 3 ≤ (v.extractLsb' 0 4).toNat ∨
      (v.extractLsb' 0 4 ≠ 0 ∧ (v.extractLsb' 4 4 ≠ 0 ∨ v.extractLsb' 14 2 ≠ 0 ∨ v.extractLsb' 21 11 ≠ 0))) :
    illegalCommand v = true := by
  have notLegal (op : (v.extractLsb' 0 4).toNat < 3) (reserved : reservedCommandBits v = false) : False := by
    simp only [reservedCommandBits, Bool.or_eq_false_iff, bne_eq_false_iff_eq, and_assoc] at reserved
    obtain ⟨low, middle, high⟩ := reserved
    obtain unknown | ⟨-, set⟩ := bad
    · exact Nat.not_le.mpr op unknown
    · exact set.elim (· low) (·.elim (· middle) (· high))
  obtain ⟨op, -⟩ | ⟨op, reserved, -⟩ | ⟨op, reserved, -⟩ | ⟨illegal, -⟩ := decodeCommand_cases v
  · simp [op] at bad
  · exact (notLegal (by rw [op]; decide) reserved).elim
  · exact (notLegal (by rw [op]; decide) reserved).elim
  · exact illegal

/-- Settles O13: R700's two length checks are independent, and a failed one leaves no more than a change of STATUS. -/
theorem invalidLengthsAreRecorded : Obligations.InvalidLengthsAreRecorded := by
  intro s kl bl released idle wrong i command
  have bad : keySizeOf kl = none ∨ blockLengthOk bl = false := by
    rwa [← Option.isNone_iff_eq_none, isNone_keySizeOf, decide_eq_true_iff, ← Bool.not_eq_true', not_blockLengthOk,
      decide_eq_true_iff]
  have recorded (op : Operation) := issueOperation_of_bad_length (op := op) idle bad
  simp only [isNone_keySizeOf, not_blockLengthOk] at recorded
  simp only [List.mem_cons, List.not_mem_nil, or_false] at command
  obtain rfl | rfl := command
  · exact (exec_of_hostWrite rfl released).trans (congrArg _ (recorded .cipher))
  · exact (exec_of_hostWrite rfl released).trans (congrArg _ (recorded .decipher))

/-- Settles O14: the word's row is ILLEGAL, whose meaning in IDLE is R700 steps 3 and 4. -/
theorem illegalCommandRecordsOnlyIllegal : Obligations.IllegalCommandRecordsOnlyIllegal :=
  fun s v released idle bad i command => by
    simp only [List.mem_cons, List.not_mem_nil, or_false] at command
    obtain rfl | rfl := command
    · exact exec_wrCtrl_of_illegal released idle (illegalCommand_of_op_or_reserved bad)
    · exact exec_illegal_of_idle released idle v

/-- Settles O15, in R757's order: NOP (O10), a busy engine (O11), an illegal word, and the two length checks. -/
theorem ctrlWriteReportsInPriorityOrder : Obligations.CtrlWriteReportsInPriorityOrder := fun s v released => by
  by_cases nop : v.extractLsb' 0 4 = 0
  · exact ⟨s, (nopHasNoEffect.2 v nop).2 s, by simp [nop]⟩
  have nonNop : (v.extractLsb' 0 4 != 0) = true := bne_iff_ne.mpr nop
  cases phase : s.eng.phase with
  | busy =>
    refine ⟨_, (busyCommandIsDiscarded s released phase).1 v nop, ?_, fun _ => ⟨rfl, rfl⟩, fun h => nomatch h.2⟩
    rw [nonNop]
    exact (Bool.or_true _).symm
  | idle =>
    have notKept {p : Prop} : (v.extractLsb' 0 4 != 0) = false ∨ Phase.idle.busyBit = true → p := fun h =>
      h.elim (fun nop => nomatch nop.symm.trans nonNop) nofun
    cases legality : illegalCommand v with
    | true =>
      refine ⟨_, exec_wrCtrl_of_illegal released phase legality, ?_, notKept, fun _ => ⟨rfl, rfl, rfl, rfl, ?_⟩⟩
      · simp [Phase.busyBit, Status.record]
      · simp [phase, Status.record]
    | false =>
      obtain ⟨op, issued⟩ := exec_wrCtrl_of_legal released legality nop
      refine ⟨_, issued, ?_, notKept, fun _ => ?_⟩
      · simp [Phase.busyBit, status_issueOperation_of_idle phase]
      · rw [issueOperation_busy_iff_of_idle phase, status_issueOperation_of_idle phase]
        exact ⟨rfl, rfl, rfl, decide_not, (and_iff_right rfl).symm⟩

/-- The only instruction that clears OVR is a STATUS write that writes a 1 to bit 5 (R654, R754). -/
theorem wrStatus_of_clears_ovr {i : Instr} {s : State} (before : s.status.ovr = true)
    (after : (nextState i s).status.ovr = false) : ∃ v, i = .wrStatus v ∧ v.getLsbD 5 = true := by
  have not_kept (kept : (nextState i s).status.ovr = true) : False := Bool.false_ne_true (after.symm.trans kept)
  cases i with
  | wrStatus v =>
    refine ⟨v, rfl, ?_⟩
    obtain ⟨-, same⟩ | ⟨-, written⟩ := hostWrite_cases (writeStatus v) s
    · rw [nextState, same, before] at after
      cases after
    · simpa [nextState, written, writeStatus, Status.writeOneToClear, before] using after
  | cipher | decipher => exact (not_kept ((commandFrame_hostWrite (commandFrame_issueOperation ..)).2 before)).elim
  | illegal => exact (not_kept ((commandFrame_hostWrite (commandFrame_issueIllegal s)).2 before)).elim
  | wrCtrl v => exact (not_kept ((commandFrame_wrCtrl v s).2 before)).elim
  | wrKeyLow | wrKeyHigh | wrDin =>
    exact (not_kept ((hostWrite_keeps (fun s => s.status.ovr) rfl).trans before)).elim
  | nop | rdCtrl | rdStatus | rdKeyLow | rdKeyHigh | rdDin | rdDout | wrDout | rdRsvd | wrRsvd | busErrMisaligned
  | busErrNarrow => exact (not_kept before).elim

/-- The descriptor of a STATUS write is 0x8204 (R654), as O2 makes it the encoder's. -/
theorem descriptor_of_decode_wrStatus {td : BitVec 16} {data v : Word}
    (decoded : decodeTransaction td data = .ok (.wrStatus v)) : td = 0x8204 ∧ data = v := by
  obtain ⟨-, encoded⟩ := encodeOfDecodeIsIdentity.2 td data _ decoded
  obtain ⟨rfl, word⟩ := CodeWord.transaction.inj encoded
  exact ⟨rfl, word.symm⟩

theorem completionStep_ovr (s : State) : (completionStep s).status.ovr = s.status.ovr := by
  obtain ⟨-, done⟩ | ⟨-, same⟩ := completionStep_cases s
  · rw [done, complete_status]
  · rw [same]

theorem roundStep_ovr (s : State) : (roundStep s).status.ovr = s.status.ovr := by
  obtain ⟨-, same⟩ | ⟨-, done⟩ := roundStep_cases s
  · rw [same]
  · rw [done]

theorem clockStep_ovr (s : State) : (clockStep s).status.ovr = s.status.ovr := by
  obtain ⟨-, same⟩ | ⟨-, -, last⟩ | ⟨-, -, passed⟩ := clockStep_cases s
  · rw [same]
  · rw [last, complete_status]
  · rw [passed]

/-- Settles O32: of the steps only a STATUS write and reset make OVR anything but what it was or 1. -/
theorem overrunIsSticky : Obligations.OverrunIsSticky := fun s t next before after => by
  have not_kept {u : State} (same : t = u) (kept : u.status.ovr = s.status.ovr) : False := by
    rw [same, kept, before] at after
    cases after
  obtain ⟨-, same⟩ | ⟨e, rest, schedule, access | ⟨-, same⟩ | ⟨-, same⟩ | ⟨-, same⟩ | ⟨rfl, -⟩ | ⟨level, rfl, same⟩⟩ :=
    step_next_cases next
  · exact (not_kept same (completionStep_ovr s)).elim
  · obtain ⟨td, data, i, rfl, decoded, rfl⟩ := access
    obtain ⟨v, rfl, bit⟩ := wrStatus_of_clears_ovr (s := dequeued rest s) before after
    obtain ⟨rfl, rfl⟩ := descriptor_of_decode_wrStatus decoded
    exact .inl ⟨data, rest, schedule, bit⟩
  · exact (not_kept same (completionStep_ovr (dequeued rest s))).elim
  · exact (not_kept same (roundStep_ovr (dequeued rest s))).elim
  · exact (not_kept same (clockStep_ovr (dequeued rest s))).elim
  · exact .inr ⟨rest, .inl schedule⟩
  · cases level with
    | true => exact .inr ⟨rest, .inr schedule⟩
    | false => exact (not_kept same rfl).elim

/-- What spells no transaction is refused by the decoder (R302). -/
theorem decodeTransaction_of_not_spells {td : BitVec 16} (unspelled : ¬ SpellsTransaction td) (data : Word) :
    ∃ e, decodeTransaction td data = .error e := by
  obtain ⟨-, refused⟩ | ⟨-, -, refused⟩ | ⟨reserved, size, -⟩ := decodeTransaction_cases td data
  · exact ⟨_, refused⟩
  · exact ⟨_, refused⟩
  · exact absurd ⟨reserved, size⟩ unspelled

/-- Settles O8: every instruction has a next state, so what is left to stop at is the decoder's refusal. -/
theorem stepStopsOnlyOnRefusedDescriptor : Obligations.StepStopsOnlyOnRefusedDescriptor := by
  refine ⟨fun i s => ⟨_, exec_eq_next i s⟩, fun s td data rest schedule unspelled => ?_, fun s => exists_step⟩
  obtain ⟨e, refused⟩ := decodeTransaction_of_not_spells unspelled data
  exact ⟨e, refused, by rw [step_access schedule, runAccess, refused]⟩

end Sys2Proof.Machine
end

section
/-! Reset (spec/70_reset_and_hazards.md R800, R802): the step that resets, and host accesses while reset is asserted. -/

namespace Sys2Proof.Machine

section
variable {s : State} (asserted : s.resetAsserted = true)
include asserted

theorem exec_of_hostWrite_asserted {i : Instr} {f : State → State} (write : nextState i s = hostWrite f s) :
    exec i s = .next s := by
  rw [exec_eq_next, write, hostWrite_asserted asserted]

/-- Every register is held at zero, and so is all of the window (R800, R125). -/
theorem windowValue_of_held (held : HeldInReset s) (off : BitVec 8) : windowValue s off = 0 := by
  have zero {n : Nat} (i : Nat) : ((Vector.replicate n (0 : Word))[i]?).getD 0 = 0 := by
    rw [Vector.getElem?_replicate]
    split <;> rfl
  have statusZero : statusWord Engine.reset.phase Status.reset = 0 := resetValues.1
  obtain ⟨key, din, dout, status, eng⟩ := held asserted
  simp only [windowValue, key, din, dout, status, eng, State.reset, zero, statusZero, ite_self]

end

/-- Settles O43: each of these is a host write, or has no effect at any time. -/
theorem writesHaveNoEffectInReset : Obligations.WritesHaveNoEffectInReset :=
  fun s v j index kl bl x asserted => by
    have write {i : Instr} {f : State → State} (row : nextState i s = hostWrite f s) : exec i s = .next s :=
      exec_of_hostWrite_asserted asserted row
    simp only [List.forall_mem_cons]
    exact ⟨write rfl, write rfl, write rfl, write rfl, write rfl, rfl, rfl, rfl, write rfl, write rfl, write rfl, nofun⟩

/-- Settles O54: the address map (O19) is zero in a state held in reset. -/
theorem readsInResetReturnResetValues : Obligations.ReadsInResetReturnResetValues :=
  fun s off data rest held asserted aligned schedule => by
    rw [windowReadFollowsAddressMap s off data rest aligned schedule, windowValue_of_held asserted held]

/-- The two events that reset the engine differ only in the level of the reset input they leave (R800). -/
theorem step_of_reset {s : State} {e : Event} {rest : List Event} (reset : e ∈ [Event.reset, .resetInput true])
    (schedule : s.schedule = e :: rest) :
    step s = .next { resetStep (dequeued rest s) with
      resetAsserted := if e = .reset then s.resetAsserted else true } := by
  rw [step_of_event schedule]
  simp only [List.mem_cons, List.not_mem_nil, or_false] at reset
  obtain rfl | rfl := reset <;> rfl

/-- Settles O53, from the values of `resetStep` and O41. -/
theorem resetStepSetsEveryRegister : Obligations.ResetStepSetsEveryRegister := fun s rest => by
  obtain ⟨status, key, operands, phase, remaining⟩ := resetValues
  exact ⟨fun e reset schedule => ⟨_, step_of_reset reset schedule, key, operands, status, phase, remaining, rfl, rfl,
    rfl⟩, step_of_event⟩

/-- Settles O42: what a reset leaves depends on the schedule, the observations and the reset input alone. -/
theorem resetAbandonsTheCommand : Obligations.ResetAbandonsTheCommand := fun s rest busy event => by
  obtain ⟨e, reset, schedule⟩ : ∃ e ∈ [Event.reset, .resetInput true], s.schedule = e :: rest := by simpa using event
  refine ⟨_, step_of_reset reset schedule, rfl, completionStep_of_idle rfl, fun j => (resetValues.2.2.1 j).2, rfl,
    fun s' idle schedule' observed level => ?_⟩
  refine ⟨_, step_of_reset reset (schedule'.trans schedule), ?_⟩
  exact ⟨rfl, rfl, rfl, rfl, rfl, rfl, nofun, by rw [level], rfl, observed.symm⟩

end Sys2Proof.Machine
end

section
/-! Operand writes seen through the register window (R201, R207, R811): a write to a KEY or DIN register changes what its
own offset reads and what no other offset does. -/

namespace Sys2Proof.Machine

/-- The aligned offsets 0x10 to 0x3C: those of KEY and DIN (R201). -/
def OperandOffset (off : BitVec 8) : Prop := off.toNat % 4 = 0 ∧ 0x10 ≤ off.toNat ∧ off.toNat ≤ 0x3C

theorem toNat_keyOffset (j : Fin 8) : (Register.key j).offset.toNat = 0x10 + 4 * j.val := by
  revert j; decide

theorem toNat_dinOffset (j : Fin 4) : (Register.din j).offset.toNat = 0x30 + 4 * j.val := by
  revert j; decide

theorem operandOffset_key (j : Fin 8) : OperandOffset (Register.key j).offset := by
  rw [OperandOffset, toNat_keyOffset]; omega

theorem operandOffset_din (j : Fin 4) : OperandOffset (Register.din j).offset := by
  rw [OperandOffset, toNat_dinOffset]; omega

theorem OperandOffset.register {off : BitVec 8} (operand : OperandOffset off) :
    (∃ j, off = (Register.key j).offset) ∨ ∃ j, off = (Register.din j).offset := by
  obtain ⟨aligned, low, high⟩ := operand
  by_cases key : off.toNat ≤ 0x2C
  · refine .inl ⟨⟨(off.toNat - 0x10) / 4, by omega⟩, BitVec.eq_of_toNat_eq ?_⟩
    rw [toNat_keyOffset, Nat.mul_div_cancel' (by omega), Nat.add_sub_cancel' low]
  · refine .inr ⟨⟨(off.toNat - 0x30) / 4, by omega⟩, BitVec.eq_of_toNat_eq ?_⟩
    rw [toNat_dinOffset, Nat.mul_div_cancel' (by omega), Nat.add_sub_cancel' (by omega)]

/-- The window over KEY, and over DIN, register by register. -/
theorem windowValue_key (s : State) (j : Fin 8) : windowValue s (Register.key j).offset = s.key[j.val] := by
  fin_cases j <;> rfl

theorem windowValue_din (s : State) (j : Fin 4) : windowValue s (Register.din j).offset = s.din[j.val] := by
  fin_cases j <;> rfl

/-- The rest of the window does not look at KEY or DIN. -/
theorem windowValue_of_not_operand {s t : State} {off : BitVec 8} (aligned : off.toNat % 4 = 0)
    (other : ¬ OperandOffset off) (status : t.status = s.status) (eng : t.eng = s.eng) (dout : t.dout = s.dout) :
    windowValue t off = windowValue s off := by
  have notKey : ¬ (0x10 ≤ off.toNat ∧ off.toNat ≤ 0x2C) := fun key => other ⟨aligned, key.1, by omega⟩
  have notDin : ¬ (0x30 ≤ off.toNat ∧ off.toNat ≤ 0x3C) := fun din => other ⟨aligned, by omega, din.2⟩
  simp only [windowValue, notKey, notDin, if_false, status, eng, dout]

theorem keyOffset_ne_dinOffset (k : Fin 8) (j : Fin 4) : (Register.key k).offset ≠ (Register.din j).offset := by
  revert k j; decide

theorem keyOffset_inj {k j : Fin 8} : (Register.key k).offset = (Register.key j).offset ↔ k = j := by
  revert k j; decide

theorem dinOffset_inj {k j : Fin 4} : (Register.din k).offset = (Register.din j).offset ↔ k = j := by
  revert k j; decide

section
variable (v : Word) (s : State) {off : BitVec 8} (aligned : off.toNat % 4 = 0)
include aligned

theorem windowValue_writeKey (j : Fin 8) :
    windowValue (writeKey j.val v s) off = if off = (Register.key j).offset then v else windowValue s off := by
  by_cases operand : OperandOffset off
  · obtain ⟨k, rfl⟩ | ⟨k, rfl⟩ := operand.register
    · simp only [windowValue_key, getElem_writeKey, keyOffset_inj, Fin.ext_iff]
    · rw [if_neg (keyOffset_ne_dinOffset j k).symm, windowValue_din, windowValue_din]
      rfl
  · have other : off ≠ (Register.key j).offset := fun same => operand (same ▸ operandOffset_key j)
    rw [if_neg other]
    exact windowValue_of_not_operand aligned operand rfl rfl rfl

theorem windowValue_writeDin (j : Fin 4) :
    windowValue (writeDin j.val v s) off = if off = (Register.din j).offset then v else windowValue s off := by
  by_cases operand : OperandOffset off
  · obtain ⟨k, rfl⟩ | ⟨k, rfl⟩ := operand.register
    · rw [if_neg (keyOffset_ne_dinOffset k j), windowValue_key, windowValue_key]
      rfl
    · simp only [windowValue_din, getElem_writeDin, dinOffset_inj, Fin.ext_iff]
  · have other : off ≠ (Register.din j).offset := fun same => operand (same ▸ operandOffset_din j)
    rw [if_neg other]
    exact windowValue_of_not_operand aligned operand rfl rfl rfl

end

theorem writeKey_descriptor (j : Fin 8) :
    descriptor true 2 (Register.key j).offset = 0x8210 + 4 * BitVec.ofNat 16 j.val := by
  revert j; decide

theorem writeDin_descriptor (j : Fin 4) :
    descriptor true 2 (Register.din j).offset = 0x8230 + 4 * BitVec.ofNat 16 j.val := by
  revert j; decide

/-- Nothing but KEY, DIN and the schedule differs. -/
def SameButOperands (rest : List Event) (s t : State) : Prop :=
  t = { s with key := t.key, din := t.din, schedule := rest }

/-- A write to a KEY or DIN register (R656, R658), whichever it is. -/
theorem step_operandWrite {s : State} {off : BitVec 8} {v : Word} {rest : List Event} (operand : OperandOffset off)
    (released : s.resetAsserted = false) (schedule : s.schedule = writeAt off v :: rest) :
    ∃ t, step s = .next t ∧ SameButOperands rest s t ∧
      ∀ o : BitVec 8, o.toNat % 4 = 0 → windowValue t o = if o = off then v else windowValue s o := by
  obtain ⟨j, rfl⟩ | ⟨j, rfl⟩ := operand.register
  · rw [writeAt, writeKey_descriptor] at schedule
    obtain ⟨i, decoded, write⟩ := decode_keyWrite j v
    exact ⟨_, (step_of_decode schedule decoded).trans (exec_of_hostWrite (write _) released), rfl,
      fun o aligned => windowValue_writeKey v (dequeued rest s) aligned j⟩
  · rw [writeAt, writeDin_descriptor] at schedule
    exact ⟨_, (step_of_decode schedule (decode_dinWrite j v)).trans (exec_of_hostWrite rfl released), rfl,
      fun o aligned => windowValue_writeDin v (dequeued rest s) aligned j⟩

/-- Settles O25: the write changes one offset of the window, and the read (O19) answers what the window holds. -/
theorem operandWriteIsVisibleToNextRead : Obligations.OperandWriteIsVisibleToNextRead :=
  fun s off v data rest released aligned low high schedule => by
    obtain ⟨t, write, frame, window⟩ := step_operandWrite ⟨aligned, low, high⟩ released schedule
    have next : t.schedule = .access (descriptor false 2 off) data :: rest := by rw [frame]
    have read := windowReadFollowsAddressMap t off data rest aligned next
    refine ⟨_, (run_succ write 1).trans (run_succ read 0), ?_, fun o alignedAt other => ?_⟩
    · rw [window off aligned, if_pos rfl, frame]
    · exact (window o alignedAt).trans (if_neg other)

end Sys2Proof.Machine
end

section
/-! The host sequence of R805 for one operation: the loads in any order, the command, its completion between STATUS
reads, and the result read from DOUT. -/

namespace Sys2Proof.Machine

theorem aligned_offset (r : Register) : r.offset.toNat % 4 = 0 := by
  cases r with
  | ctrl | status => rfl
  | key j => exact (operandOffset_key j).1
  | din j => exact (operandOffset_din j).1
  | dout j => revert j; decide

/-- The reads of a list of registers, the last one's value observed newest (R201, R18). -/
def afterReads (registers : List Register) (rest : List Event) (s : State) : State :=
  { s with
    schedule := rest
    observed := (registers.map fun r => Observation.value (windowValue s r.offset)).reverse ++ s.observed }

theorem run_reads (registers : List Register) {rest : List Event} {s : State}
    (schedule : s.schedule = registers.map readRegister ++ rest) :
    run registers.length s = .next (afterReads registers rest s) := by
  induction registers generalizing s with
  | nil =>
    have schedule : s.schedule = rest := schedule
    rw [afterReads, ← schedule]
    rfl
  | cons r registers ih =>
    have first := windowReadFollowsAddressMap s r.offset 0 _ (aligned_offset r) schedule
    rw [List.length_cons, run_succ first, ih rfl]
    simp only [afterReads, List.map_cons, List.reverse_cons, List.append_assoc, List.singleton_append]
    rfl

/-- A state whose KEY and DIN hold the key and the block (R205); KEY past the key's end is zero. -/
def loadedState (key block : List Byte) : State :=
  { State.reset with
    key := Vector.ofFn fun j => packedWord key j.val
    din := Vector.ofFn fun j => packedWord block j.val }

/-- An operand write of what the window of u holds. -/
def LoadsFrom (u : State) (e : Event) : Prop := ∃ off, OperandOffset off ∧ e = writeAt off (windowValue u off)

theorem offset_eq_of_writeAt_eq {off off' : BitVec 8} {v v' : Word} (same : writeAt off v = writeAt off' v') :
    off = off' := by
  obtain ⟨same, -⟩ := Event.access.inj same
  rw [← offset_descriptor true 2 off, same, offset_descriptor]

/-- Loads from u in any order: what is loaded reads as in u, and what already does still does. -/
theorem run_loads (u : State) (loads : List Event) {rest : List Event} {s : State} (released : s.resetAsserted = false)
    (fromU : ∀ e ∈ loads, LoadsFrom u e) (schedule : s.schedule = loads ++ rest) :
    ∃ t, run loads.length s = .next t ∧ SameButOperands rest s t ∧ ∀ off, OperandOffset off →
      windowValue s off = windowValue u off ∨ writeAt off (windowValue u off) ∈ loads →
      windowValue t off = windowValue u off := by
  induction loads generalizing s with
  | nil =>
    have schedule : s.schedule = rest := schedule
    exact ⟨s, rfl, by rw [SameButOperands, ← schedule], fun _ _ same => same.resolve_right List.not_mem_nil⟩
  | cons e loads ih =>
    obtain ⟨written, operand, rfl⟩ := fromU e List.mem_cons_self
    obtain ⟨s', first, frame, window⟩ := step_operandWrite operand released schedule
    obtain ⟨t, reached, frame', loaded⟩ := ih (s := s') (by rw [frame]; exact released)
      (fun e mem => fromU e (List.mem_cons_of_mem _ mem)) (by rw [frame]; rfl)
    refine ⟨t, (run_succ first _).trans reached, by rw [SameButOperands, frame', frame], fun off operandAt same => ?_⟩
    apply loaded off operandAt
    rw [window off operandAt.1]
    by_cases here : off = written
    · rw [if_pos here, here]
      exact .inl rfl
    · rw [if_neg here]
      exact same.imp_right fun mem =>
        (List.mem_cons.mp mem).resolve_left fun write => here (offset_eq_of_writeAt_eq write)

theorem map_range_getD {l : List Byte} : (List.range l.length).map (l.getD · 0) = l :=
  List.ext_getElem (by simp) fun i _ inside => by simp [inside]

theorem byteLane_of_packed {n : Nat} {registers : Vector Word n} {bytes : List Byte} {k : Nat} (inside : k / 4 < n)
    (packed : registers[k / 4] = packedWord bytes (k / 4)) :
    byteLane ((registers[k / 4]?).getD 0) (k % 4) = bytes.getD k 0 := by
  have lane : k % 4 < 4 := Nat.mod_lt k (by decide)
  rw [Vector.getElem?_eq_getElem inside, Option.getD_some, packed, byteLane_packedWord _ _ lane, Nat.div_add_mod]

/-- The snapshot's operands are the byte sequences that KEY and DIN hold (R703, R14). -/
theorem keyOperand_of_packed {s : State} {nk : KeySize} {key : List Byte} (length : key.length = nk.bytes)
    (packed : ∀ j : Fin 8, j.val < nk.words → s.key[j.val] = packedWord key j.val) : keyOperand s nk = key :=
  calc keyOperand s nk
    _ = (List.range key.length).map (key.getD · 0) := by
      rw [keyOperand, length]
      refine List.map_congr_left fun k mem => ?_
      have register : k / 4 < nk.words := Nat.div_lt_of_lt_mul (List.mem_range.mp mem)
      have index : k / 4 < 8 := register.trans_le (words_le_eight nk)
      exact byteLane_of_packed index (packed ⟨k / 4, index⟩ register)
    _ = key := map_range_getD

theorem blockOperand_of_packed {s : State} {block : List Byte} (length : block.length = 16)
    (packed : ∀ j : Fin 4, s.din[j.val] = packedWord block j.val) : blockOperand s = block :=
  calc blockOperand s
    _ = (List.range block.length).map (block.getD · 0) := by
      rw [blockOperand, length]
      refine List.map_congr_left fun k mem => ?_
      have index : k / 4 < 4 := Nat.div_lt_of_lt_mul (List.mem_range.mp mem)
      exact byteLane_of_packed index (packed ⟨k / 4, index⟩)
    _ = block := map_range_getD

section
variable (key block : List Byte)

/-- The LOADKEY write of KEY[j], and the LOADBLK write of DIN[j] (R310). -/
theorem writeAt_loadedState_key (j : Fin 8) :
    writeAt (Register.key j).offset (windowValue (loadedState key block) (Register.key j).offset) =
      writeAt (0x10 + 4 * BitVec.ofNat 8 j.val) (packedWord key j.val) := by
  rw [windowValue_key, loadedState, Vector.getElem_ofFn]
  rfl

theorem writeAt_loadedState_din (j : Fin 4) :
    writeAt (Register.din j).offset (windowValue (loadedState key block) (Register.din j).offset) =
      writeAt (0x30 + 4 * BitVec.ofNat 8 j.val) (packedWord block j.val) := by
  rw [windowValue_din, loadedState, Vector.getElem_ofFn]
  rfl

variable {key block} {loads : List Event}

theorem mem_loads {nk : KeySize} (length : key.length = nk.bytes) {e : Event} :
    e ∈ loadKey key ++ loadBlock block ↔
      (∃ j : Fin 8, j.val < nk.words ∧
        e = writeAt (Register.key j).offset (windowValue (loadedState key block) (Register.key j).offset)) ∨
      ∃ j : Fin 4,
        e = writeAt (Register.din j).offset (windowValue (loadedState key block) (Register.din j).offset) := by
  have words : key.length / 4 = nk.words := by rw [length, KeySize.bytes]; omega
  have bound := words_le_eight nk
  simp only [writeAt_loadedState_key, writeAt_loadedState_din, List.mem_append, loadKey, loadBlock, List.mem_map,
    List.mem_range, words, Fin.exists_iff]
  constructor
  · rintro (⟨j, inside, rfl⟩ | ⟨j, inside, rfl⟩)
    · exact .inl ⟨j, by omega, inside, rfl⟩
    · exact .inr ⟨j, inside, rfl⟩
  · rintro (⟨j, -, inside, rfl⟩ | ⟨j, inside, rfl⟩)
    · exact .inl ⟨j, inside, rfl⟩
    · exact .inr ⟨j, inside, rfl⟩

/-- R805 steps 1 and 2: after the loads, in any order, an accepted command's snapshot is the key and the block. -/
theorem run_hostLoads {nk : KeySize} {rest : List Event} {s : State} (released : s.resetAsserted = false)
    (keyLength : key.length = nk.bytes) (blockLength : block.length = 16)
    (perm : loads.Perm (loadKey key ++ loadBlock block)) (schedule : s.schedule = loads ++ rest) :
    ∃ t, run (nk.words + 4) s = .next t ∧ SameButOperands rest s t ∧ keyOperand t nk = key ∧
      blockOperand t = block := by
  have mem (e : Event) := perm.mem_iff.trans (mem_loads (block := block) (e := e) keyLength)
  have count : loads.length = nk.words + 4 := by
    rw [perm.length_eq]
    simp [loadKey, loadBlock, keyLength, KeySize.bytes]
  obtain ⟨t, reached, frame, loaded⟩ := run_loads (loadedState key block) loads released (fun e load => by
    obtain ⟨j, -, write⟩ | ⟨j, write⟩ := (mem e).mp load
    · exact ⟨_, operandOffset_key j, write⟩
    · exact ⟨_, operandOffset_din j, write⟩) schedule
  refine ⟨t, count ▸ reached, frame, keyOperand_of_packed keyLength fun j inside => ?_,
    blockOperand_of_packed blockLength fun j => ?_⟩
  · have window := loaded _ (operandOffset_key j) (.inr ((mem _).mpr (.inl ⟨j, inside, rfl⟩)))
    rw [windowValue_key, windowValue_key] at window
    exact window.trans (Vector.getElem_ofFn _)
  · have window := loaded _ (operandOffset_din j) (.inr ((mem _).mpr (.inr ⟨j, rfl⟩)))
    rw [windowValue_din, windowValue_din] at window
    exact window.trans (Vector.getElem_ofFn _)

end

/-- `CIPHER128` to `DECIPHER256`: the command of R310 for the operation and the key size. -/
def operationCommand (op : Operation) (nk : KeySize) : Event :=
  if op = .cipher then cipherCommand nk else decipherCommand nk

/-- The words R310 writes out are those of R303 for the operation, with its legal lengths. -/
theorem operationCommand_eq (op : Operation) (nk : KeySize) :
    operationCommand op nk =
      .access 0x8200 (commandWord (if op = .cipher then 1 else 2) (BitVec.ofNat 6 nk.bytes) 16) := by
  cases op <;> cases nk <;> rfl

theorem step_operationCommand {op : Operation} {nk : KeySize} {rest : List Event} {s : State}
    (released : s.resetAsserted = false) (idle : s.eng.phase = .idle)
    (schedule : s.schedule = operationCommand op nk :: rest) :
    step s = .next (accept op nk (clearOutcome (dequeued rest s))) := by
  have accepted := issueOperation_of_legal (op := op) (bl := 16) (s := dequeued rest s) idle (keySizeOf_bytes nk) rfl
  rw [operationCommand_eq] at schedule
  rw [ctrlWriteRunsItsCommandWord.2 s _ rest schedule, ← accepted]
  cases op with
  | cipher =>
    exact (congrArg (exec · _) (decodeCommand_commandWord_cipher ..)).trans (exec_of_hostWrite rfl released)
  | decipher =>
    exact (congrArg (exec · _) (decodeCommand_commandWord_decipher ..)).trans (exec_of_hostWrite rfl released)

/-- R805 steps 3 and 4: the STATUS read and the command. -/
theorem run_command {op : Operation} {nk : KeySize} {rest : List Event} {s : State}
    (released : s.resetAsserted = false) (idle : s.eng.phase = .idle)
    (schedule : s.schedule = readRegister .status :: operationCommand op nk :: rest) :
    run 2 s = .next (accept op nk (clearOutcome (afterReads [.status] rest s))) := by
  have before := run_reads [.status] (rest := operationCommand op nk :: rest) schedule
  have command := step_operationCommand (s := afterReads [.status] (operationCommand op nk :: rest) s) released idle rfl
  exact (run_add before 1).trans (run_succ command 0)

theorem run_wait {m : Nat} {rest : List Event} {s : State} (schedule : s.schedule = wait m ++ rest) :
    run m s = .next (afterReads (List.replicate m .status) rest s) := by
  rw [wait, pollReads, ← List.map_replicate] at schedule
  have reads := run_reads _ schedule
  rwa [List.length_replicate] at reads

/-- The registers that R805 steps 6 and 7 read. -/
def resultRegisters : List Register := [.status, .dout 0, .dout 1, .dout 2, .dout 3]

/-- R805 steps 5 to 7: STATUS reads of a busy engine, its completion, and the reads after it. -/
theorem run_result {m : Nat} {rest : List Event} {s : State} (busy : s.eng.phase = .busy)
    (schedule : s.schedule = wait m ++ .completion :: (wait 1 ++ readBlock ++ rest)) :
    run (m + 6) s =
      .next (afterReads resultRegisters rest (complete (afterReads (List.replicate m .status) rest s))) := by
  have waiting := run_wait schedule
  have completes := step_of_completion (s := afterReads (List.replicate m .status) _ s)
    (rest := resultRegisters.map readRegister ++ rest) (.inl rfl)
  rw [completionStep_of_busy (by exact busy)] at completes
  have results := run_reads resultRegisters (rest := rest) (s := complete (dequeued
    (resultRegisters.map readRegister ++ rest) (afterReads (List.replicate m .status) rest s))) rfl
  exact (run_add waiting 6).trans ((run_succ completes 5).trans results)

theorem windowValue_status (s : State) : windowValue s Register.status.offset = statusWord s.eng.phase s.status := rfl

theorem windowValue_dout (s : State) (j : Fin 4) : windowValue s (Register.dout j).offset = s.dout[j.val] := by
  fin_cases j <;> rfl

/-- The STATUS reads of a wait all see the same word (R653). -/
theorem observed_afterWait (m : Nat) (rest : List Event) (s : State) :
    (afterReads (List.replicate m .status) rest s).observed =
      List.replicate m (Observation.value (statusWord s.eng.phase s.status)) ++ s.observed := by
  rw [afterReads, List.map_replicate, List.reverse_replicate, windowValue_status]

theorem observed_afterResult (rest : List Event) (s : State) :
    (afterReads resultRegisters rest s).observed =
      .value s.dout[3] :: .value s.dout[2] :: .value s.dout[1] :: .value s.dout[0] ::
        .value (statusWord s.eng.phase s.status) :: s.observed := by
  simp only [afterReads, resultRegisters, List.map_cons, List.map_nil, windowValue_status, windowValue_dout]
  rfl

/-- What the host has observed after R805 steps 3 to 7, newest first: DOUT, STATUS with DONE, m times STATUS with BUSY,
STATUS before the command, and what it had observed before. -/
def observedAfterOperation (st : Status) (m : Nat) (result : Vector Word 4) (before : List Observation) :
    List Observation :=
  .value result[3] :: .value result[2] :: .value result[1] :: .value result[0] ::
    .value (statusWord .idle ⟨true, false, false, false, st.ovr⟩) ::
    (List.replicate m (Observation.value (statusWord .busy ⟨false, false, false, false, st.ovr⟩)) ++
      Observation.value (statusWord .idle st) :: before)

/-- R805 steps 3 to 7: the result is that of the operands that KEY and DIN hold when the command comes. -/
theorem run_operation {op : Operation} {nk : KeySize} {m : Nat} {rest : List Event} {s : State}
    (released : s.resetAsserted = false) (idle : s.eng.phase = .idle)
    (schedule : s.schedule = readRegister .status :: operationCommand op nk ::
      (wait m ++ .completion :: (wait 1 ++ readBlock ++ rest))) :
    ∃ t, run (m + 8) s = .next t ∧ t.schedule = rest ∧ t.eng.phase = .idle ∧ t.status.done = true ∧
      t.observed = observedAfterOperation s.status m
        (packedBlock (runPipeline op nk (blockOperand s) (keyOperand s nk))) s.observed := by
  have command := run_command released idle schedule
  have result := run_result (m := m) (rest := rest)
    (s := accept op nk (clearOutcome (afterReads [.status] _ s))) rfl rfl
  have count : m + 8 = 2 + (m + 6) := by omega
  refine ⟨_, by rw [count, run_add command, result], rfl, rfl, rfl, ?_⟩
  have before (rest : List Event) : (afterReads [.status] rest s).observed =
      .value (statusWord .idle s.status) :: s.observed := idle ▸ observed_afterWait 1 rest s
  rw [observed_afterResult, complete_observed, observed_afterWait, accept_observed, clearOutcome, updateStatus_observed,
    before]
  rfl

/-- STATUS as R805 expects it in steps 5 and 6: BUSY or DONE, beside an OVR from before. -/
theorem statusWord_busy (ovr : Bool) :
    statusWord .busy ⟨false, false, false, false, ovr⟩ = (if ovr then 0x00000020 else 0x00000000) ||| 0x00000001 := by
  cases ovr <;> rfl

theorem statusWord_done (ovr : Bool) :
    statusWord .idle ⟨true, false, false, false, ovr⟩ = (if ovr then 0x00000020 else 0x00000000) ||| 0x00000002 := by
  cases ovr <;> rfl

/-- Settles O52: after the loads an accepted command's operands are the key and the block, and the rest is one
operation on them. -/
theorem hostSequenceReturnsTheResult : Obligations.HostSequenceReturnsTheResult :=
  fun s op nk key block loads m rest released idle keyLength blockLength perm schedule => by
    simp only [List.append_assoc] at schedule
    obtain ⟨t, loaded, frame, keyIs, blockIs⟩ := run_hostLoads released keyLength blockLength perm schedule
    obtain ⟨u, reached, tail, phase, done, observed⟩ := run_operation (s := t) (op := op) (nk := nk) (m := m)
      (rest := rest) (by rw [frame]; exact released) (by rw [frame]; exact idle) (by rw [frame]; rfl)
    have count : nk.words + m + 12 = nk.words + 4 + (m + 8) := by omega
    refine ⟨u, by rw [count, run_add loaded, reached], tail, phase, done, ?_⟩
    rw [observed, observedAfterOperation, keyIs, blockIs, statusWord_busy, statusWord_done, frame]
    simp only [List.append_assoc, List.cons_append, List.nil_append]

end Sys2Proof.Machine
end
